-- ==== Sys2Proof/Word.lean ====
section
/-! DEFINITION. Word types of C128B-ENC: command words, ordinals, PROM addresses, patterns, roles and symbol records. -/

namespace Sys2Proof

/-- One command word `CMD[7:0]` (R60). -/
abbrev CmdWord := BitVec 8

/-- A character ordinal, an unsigned 7-bit number 0 to 127 (R7, R61; `CHAR_W` is fixed at 7, R6). -/
abbrev CharOrd := BitVec 7

/-- A PROM word address 0 to 127 (R40). -/
abbrev PromAddr := BitVec 7

/-- `PHASE`: IDLE = 0, RUN = 1 (R23). -/
inductive Phase where
  | idle
  | run
  deriving DecidableEq, Repr, Inhabited

/-- `ROLE` of a symbol record (R64). -/
inductive Role where
  | start
  | data
  | checksum
  | stop
  deriving DecidableEq, Repr

/-- A Pattern: 11 or 13 modules (R8). The digits are read as a binary numeral, so that module `m[0]`,
the leftmost digit of the source's string, is the most significant bit (R49). -/
inductive Pattern where
  | eleven (digits : BitVec 11)
  | thirteen (digits : BitVec 13)
  deriving DecidableEq, Repr

/-- A symbol record as the triple (role, index, Pattern) that R62 allows. -/
structure SymRecord where
  role : Role
  idx : Nat
  pattern : Pattern
  deriving DecidableEq, Repr

end Sys2Proof
end

