-- ==== Sys2Proof/Config.lean ====
section
/-! DEFINITION. The parameters of R6 and the free values of the powered-up block (R34, R153). -/

namespace Sys2Proof

/-- `P_CHK_HI`: what END does when the checksum remainder is 95 to 102 (R6). -/
inductive ChkHi where
  | skip
  | emit
  deriving DecidableEq, Repr

/-- The parameters of R6. `promData` holds exactly the 93 patterns the parameter `PROM_DATA` may choose
(addresses 0 to 32 and then 35 to 94; 33 and 34 are fixed by R43); `promHi` holds addresses 95 to 102.
The types say what R44 asks of every admissible table: all programmed, 11 modules each. -/
structure Config where
  idxW : Nat
  chkHi : ChkHi
  promData : Vector (BitVec 11) 93
  promHi : Vector (BitVec 11) 8
  deriving DecidableEq, Repr

/-! Free values: the unspecified contents of each register after the n-th power-up and before RESET
(R34, R153, U11 of 93_implementation_defined.md; log 4, log 5). Nothing constrains them. -/

opaque Config.powerUpPhase : Nat → Phase
opaque Config.powerUpAcc : Nat → BitVec 7
opaque Config.powerUpWgt : Nat → BitVec 7
opaque Config.powerUpLenc : Nat → BitVec 5
opaque Config.powerUpPos : Nat → Nat
opaque Config.powerUpDone : Nat → Bool
opaque Config.powerUpErr : Nat → Bool
opaque Config.powerUpUnsup : Nat → Bool
opaque Config.powerUpChkskip : Nat → Bool
opaque Config.powerUpPosovf : Nat → Bool

end Sys2Proof
end

