-- ==== Sys2Proof/Syntax.lean ====
section
/-! DEFINITION. The command set C128B-CMD/1: one constructor per row of spec/opcode_table.json. -/

namespace Sys2Proof

/-- The two commands (R72). RESET is a request on its own wire, not a command word (R150). -/
inductive Instr where
  /-- `CHAR c` (R90): present one character. -/
  | char (c : CharOrd)
  /-- `END` (R100): mark the end of the string. -/
  | endFrame
  deriving DecidableEq, Repr

end Sys2Proof
end

