-- ==== Sys2Proof/WellFormed.lean ====
section
/-! DEFINITION. Checks on data whose type admits more than the spec does. -/

namespace Sys2Proof

/-- Every term of `Instr` is an instruction of the block: each of the 128 ordinals is a legal operand of
CHAR (R66, "Every CHAR encoding is legal") and END has no operand, so nothing is refused here. -/
def Instr.wf : Instr → Bool
  | .char _ => true
  | .endFrame => true

/-- `IDX_W` is any integer at least 1 (R6); the other parameters are admissible by their types. -/
def Config.wf (g : Config) : Bool := decide (1 ≤ g.idxW)

/-- The Pattern has 13 modules. -/
def Pattern.isThirteen : Pattern → Bool
  | .eleven _ => false
  | .thirteen _ => true

/-- A record the block can form at index width `w`: the index fits `IDX_W` bits and is 0 for every role
but Data (R62), and the Stop record is the only 13-module record (R103). -/
def SymRecord.wf (w : Nat) (r : SymRecord) : Bool :=
  decide (r.idx < 2 ^ w) && (decide (r.role = .data) || decide (r.idx = 0)) &&
    (r.pattern.isThirteen == decide (r.role = .stop))

end Sys2Proof
end

