-- ==== Sys2Proof/Decode.lean ====
section
/-! DEFINITION. The decoder of R60, total on all 256 command words, and the encoder. -/

namespace Sys2Proof

/-- Why a word is not an instruction: it is one of 0x81 to 0xFF (R66). -/
inductive Reject where
  | illegalCommand
  deriving DecidableEq, Repr

/-- One row of the command table of R72: the word matches when its masked bits equal the pattern. -/
structure OpRow where
  mnemonic : String
  mask : CmdWord
  pattern : CmdWord
  deriving DecidableEq, Repr

/-- The row of CHAR (R72). -/
def rowChar : OpRow := ⟨"CHAR", 0x80, 0x00⟩

/-- The row of END (R72). -/
def rowEnd : OpRow := ⟨"END", 0xFF, 0x80⟩

/-- The complete command table (R72). -/
def opcodeRows : List OpRow := [rowChar, rowEnd]

/-- A word is of a row (mask and match of R72). -/
def OpRow.holds (r : OpRow) (w : CmdWord) : Bool := decide (w &&& r.mask = r.pattern)

/-- The field `C = CMD[6:0]`; as CHAR's operand it is not sign-extended, scaled or shifted (R60, R61). -/
def fieldC (w : CmdWord) : CharOrd := w.setWidth 7

/-- Decoding depends on the command word alone and is total (R60). -/
def decode (w : CmdWord) : Except Reject Instr :=
  if rowChar.holds w then .ok (.char (fieldC w))
  else if rowEnd.holds w then .ok .endFrame
  else .error .illegalCommand

/-- The command word of an instruction (R60): `K` = 0 and the ordinal in `C`, or 0x80. -/
def encode : Instr → CmdWord
  | .char c => c.setWidth 8
  | .endFrame => 0x80

/-- Decode a sequence of transferred command words, in order; one illegal word makes it fail (R60, R68:
every command is one 8-bit word, so the words are decoded one by one). -/
def decodeWords : List CmdWord → Except Reject (List Instr)
  | [] => .ok []
  | w :: ws =>
    match decode w with
    | .error e => .error e
    | .ok i =>
      match decodeWords ws with
      | .error e => .error e
      | .ok is => .ok (i :: is)

/-- The instruction the decoder reads from the low `nbits` bits of `w` (every bit above `nbits` is 0);
an instruction of this block is one 8-bit word (R68). -/
def decodeTableWord (nbits w : Nat) : Option Instr :=
  match decode (BitVec.ofNat 8 (w % 2 ^ nbits)) with
  | .ok i => some i
  | .error _ => none

end Sys2Proof
end

