-- ==== Sys2Proof/Machine/Operands.lean ====
section
/-! DEFINITION. Character classes, checksum values and the data address (R9, R80 to R82). -/

namespace Sys2Proof.Machine

/-- `a mod 103`, the Euclidean residue 0 to 102 of any integer (R9; D9, log 12). -/
def residue103 (a : Int) : Nat := (a.emod 103).toNat

/-- `supported(c)`: exactly when 0x20 ≤ c ≤ 0x7E, decided from `c` alone (R80). -/
def supported (c : CharOrd) : Bool := decide (0x20 ≤ c.toNat) && decide (c.toNat ≤ 0x7E)

/-- `cv(c) = (c - 32) mod 103`, defined for every ordinal (R81). -/
def cv (c : CharOrd) : Nat := residue103 ((c.toNat : Int) - 32)

/-- `DataAddr(c) = c - 32`, used only where `supported c` (R82). -/
def dataAddr (c : CharOrd) : PromAddr := BitVec.ofNat 7 (c.toNat - 32)

end Sys2Proof.Machine
end

