-- ==== Sys2Proof/Machine/Prom.lean ====
section
/-! DEFINITION. The pattern ROM: fixed patterns (R43), default tables (R45, R46), the address map (R52),
the read (R83) and the 15-bit word (R42). -/

namespace Sys2Proof.Machine

/-- PROM addresses 0 to 15 (R45). -/
def promDataLow0 : List (BitVec 11) :=
  [0b11011001100, 0b11001101100, 0b11001100110, 0b10010011000,
   0b10010001100, 0b10001001100, 0b10011001000, 0b10011000100,
   0b10001100100, 0b11001001000, 0b11001000100, 0b11000100100,
   0b10110011100, 0b10011011100, 0b10011001110, 0b10111001100]

/-- PROM addresses 16 to 31 (R45). -/
def promDataLow1 : List (BitVec 11) :=
  [0b10011101100, 0b10011100110, 0b11001110010, 0b11001011100,
   0b11001001110, 0b11011100100, 0b11001110100, 0b11101101110,
   0b11101001100, 0b11100101100, 0b11100100110, 0b11101100100,
   0b11100110100, 0b11100110010, 0b11011011000, 0b11011000110]

/-- PROM addresses 32 to 32 (R45). -/
def promDataLow2 : List (BitVec 11) :=
  [0b11000110110]

/-- PROM addresses 35 to 50 (R45). -/
def promDataRest0 : List (BitVec 11) :=
  [0b10001000110, 0b10110001000, 0b10001101000, 0b10001100010,
   0b11010001000, 0b11000101000, 0b11000100010, 0b10110111000,
   0b10110001110, 0b10001101110, 0b10111011000, 0b10111000110,
   0b10001110110, 0b11101110110, 0b11010001110, 0b11000101110]

/-- PROM addresses 51 to 66 (R45). -/
def promDataRest1 : List (BitVec 11) :=
  [0b11011101000, 0b11011100010, 0b11011101110, 0b11101011000,
   0b11101000110, 0b11100010110, 0b11101101000, 0b11101100010,
   0b11100011010, 0b11101111010, 0b11001000010, 0b11110001010,
   0b10100110000, 0b10100001100, 0b10010110000, 0b10010000110]

/-- PROM addresses 67 to 82 (R45). -/
def promDataRest2 : List (BitVec 11) :=
  [0b10000101100, 0b10000100110, 0b10110010000, 0b10110000100,
   0b10011010000, 0b10011000010, 0b10000110100, 0b10000110010,
   0b11000010010, 0b11001010000, 0b11110111010, 0b11000010100,
   0b10001111010, 0b10100111100, 0b10010111100, 0b10010011110]

/-- PROM addresses 83 to 94 (R45). -/
def promDataRest3 : List (BitVec 11) :=
  [0b10111100100, 0b10011110100, 0b10011110010, 0b11110100100,
   0b11110010100, 0b11110010010, 0b11011011110, 0b11011110110,
   0b11110110110, 0b10101111000, 0b10100011110, 0b10001011110]

/-- PROM addresses 95 to 102 (R46). -/
def promHiRows0 : List (BitVec 11) :=
  [0b10111101000, 0b10111100010, 0b11110101000, 0b11110100010,
   0b10111011110, 0b10111101110, 0b11101011110, 0b11110101110]

/-- The default `PROM_DATA` of R45, less addresses 33 and 34. PRESUMED (general knowledge, G1; log 2). -/
def promDataDefault : Vector (BitVec 11) 93 :=
  ⟨(promDataLow0 ++ promDataLow1 ++ promDataLow2 ++
    promDataRest0 ++ promDataRest1 ++ promDataRest2 ++ promDataRest3).toArray, by decide⟩

/-- The default `PROM_HI` of R46. PRESUMED (general knowledge, G2; log 2). -/
def promHiDefault : Vector (BitVec 11) 8 := ⟨promHiRows0.toArray, by decide⟩

/-- The parameters at the defaults of R6: `IDX_W` = 16, `P_CHK_HI` = SKIP, the tables of R45 and R46. -/
def defaultConfig : Config :=
  { idxW := 16, chkHi := .skip, promData := promDataDefault, promHi := promHiDefault }

/-- Pattern of `A`, PROM address 33 (R43). -/
def patternA : Pattern := .eleven 0b10100011000

/-- Pattern of `B`, PROM address 34 (R43). -/
def patternB : Pattern := .eleven 0b10001011000

/-- The Start pattern, PROM address 104 (R43). -/
def patternStart : Pattern := .eleven 0b11010010000

/-- The Stop pattern, PROM address 106 (R43). -/
def patternStop : Pattern := .thirteen 0b1100011101011

/-- PROM address of the Start pattern (R41). -/
def startAddr : PromAddr := 104

/-- PROM address of the Stop pattern (R41). -/
def stopAddr : PromAddr := 106

/-- The content of a PROM address, in the order of the map of R52; `none` where unprogrammed. The four
entries of R43 come from no parameter. -/
def promContent (g : Config) (a : Nat) : Option Pattern :=
  if a = 33 then some patternA
  else if a = 34 then some patternB
  else if h : a < 33 then some (.eleven g.promData[a])
  else if h : a < 95 then some (.eleven g.promData[a - 2])
  else if h : a < 103 then
    match g.chkHi with
    | .skip => none
    | .emit => some (.eleven g.promHi[a - 95])
  else if a = 104 then some patternStart
  else if a = 106 then some patternStop
  else none

/-- `PromRead(a)` (R83): no side effect, the same result for the same address (R48). -/
def promRead (g : Config) (a : PromAddr) : Option Pattern := promContent g a.toNat

/-- `ChkPattern(r)` is `PromRead(r)` (R85). -/
def chkPattern (g : Config) (r : BitVec 7) : Option Pattern := promRead g r

/-- `len(p)` (R8). -/
def patternLength : Pattern → Nat
  | .eleven _ => 11
  | .thirteen _ => 13

/-- `N13` (R63). -/
def patternN13 : Pattern → BitVec 1
  | .eleven _ => 0
  | .thirteen _ => 1

/-- `PAT[12:0]`, the Pattern left-aligned, so that `PAT[12 - k] = m[k]` (R63). -/
def patternPat : Pattern → BitVec 13
  | .eleven d => d ++ 0#2
  | .thirteen d => d

/-- The modules `m[0], m[1], ...` of a Pattern, the first drawn first; true is a bar (R8, R49). -/
def patternModules : Pattern → List Bool
  | .eleven d => (List.range 11).map d.getMsbD
  | .thirteen d => (List.range 13).map d.getMsbD

/-- The Pattern that `N13` and `PAT` carry (R63, "Conversely"); `none` where an 11-module word has
`PAT[1:0]` other than 0. -/
def patternOfWires (n13 : BitVec 1) (pat : BitVec 13) : Option Pattern :=
  if n13 = 1 then some (.thirteen pat)
  else if pat.setWidth 2 = 0#2 then some (.eleven (pat.extractLsb' 2 11))
  else none

/-- The PROM word `V, N13, PAT[12:0]` of an address, all zeros where unprogrammed (R42). -/
def promWord (g : Config) (a : PromAddr) : BitVec 15 :=
  match promRead g a with
  | some p => 1#1 ++ patternN13 p ++ patternPat p
  | none => 0

/-- The lengths of the runs of equal modules after a run of `n` modules `cur` has begun. -/
def runLengths (cur : Bool) (n : Nat) : List Bool → List Nat
  | [] => [n]
  | b :: bs => if b = cur then runLengths cur (n + 1) bs else n :: runLengths b 1 bs

/-- The run lengths bar, space, bar, ... of a Pattern: the "widths" column of R45 and R46. -/
def patternWidths (p : Pattern) : List Nat :=
  match patternModules p with
  | [] => []
  | b :: bs => runLengths b 1 bs

end Sys2Proof.Machine
end

