-- ==== Sys2Proof/Machine/State.lean ====
section
/-! DEFINITION. The state of the block, the events at its ports, the reasons a step can stop, and the
state right after RESET. -/

namespace Sys2Proof.Machine

/-- What the outside presents to the block, one at a time (R69, R150; log 3). -/
inductive Event where
  /-- A command word is transferred on `CMD`. -/
  | command (w : CmdWord)
  /-- `RESET_REQ` is asserted, with the command word presented together with it, if any (R150). -/
  | reset (also : Option CmdWord)
  /-- Power is lost and applied again (R145, R153; log 4). -/
  | powerCycle
  deriving DecidableEq, Repr

/-- No step of this block stops with a fault: the one fault of the spec, IllegalCommand, has its whole
entry described (R131, R138: `ERR <- 1`, nothing else) and is a next state (log 8). So there is no
constructor, raised by nobody; safe. -/
inductive Fault where
  deriving DecidableEq, Repr

/-- Why a step has no meaning. -/
inductive Refusal where
  /-- An instruction without a meaning, rejected by name in `exec`; raised by no arm of this model. Safe. -/
  | notModelled (mnemonic : String)
  /-- A command word presented after power-up and before the first RESET, raised by `runCommand`: "until it
  has, no rule of this spec describes the block" (R153), "no step but RESET" (U11). Safe. -/
  | commandBeforeReset
  deriving DecidableEq, Repr

/-- The state. `cfg`, `port` and `powerUps` are the model's own (logs 1, 3, 5); the rest is R20, R31, R153. -/
structure State where
  /-- The parameters of R6: configuration that no step writes (R14; log 1). -/
  cfg : Config
  /-- `PHASE` (R23). -/
  phase : Phase
  /-- `ACC` (R24). -/
  acc : BitVec 7
  /-- `WGT` (R25). -/
  wgt : BitVec 7
  /-- `LENC` (R26). -/
  lenc : BitVec 5
  /-- `POS`, a number below `2 ^ IDX_W` (R27; log 6). -/
  pos : Nat
  /-- `DONE` (R28). -/
  done : Bool
  /-- `ERR` (R28, R131). -/
  err : Bool
  /-- `UNSUP` (R28). -/
  unsup : Bool
  /-- `CHKSKIP` (R28). -/
  chkskip : Bool
  /-- `POSOVF` (R28). -/
  posovf : Bool
  /-- `OUT`, oldest record first (R31). -/
  out : List SymRecord
  /-- A RESET has happened since power was applied (R34, R153; log 4). -/
  booted : Bool
  /-- How many times power was applied again: the argument of the free values (log 5). -/
  powerUps : Nat
  /-- What is presented from now on, oldest first (log 3). -/
  port : List Event
  deriving DecidableEq, Repr

/-- The block right after RESET: the values of R34, `OUT` initially empty (R31), the default parameters
(R6), nothing presented yet. -/
def State.reset : State :=
  { cfg := defaultConfig
    phase := .idle
    acc := 1
    wgt := 1
    lenc := 0
    pos := 0
    done := false
    err := false
    unsup := false
    chkskip := false
    posovf := false
    out := []
    booted := true
    powerUps := 0
    port := [] }

end Sys2Proof.Machine
end

