-- ==== Sys2Proof/Machine/Flags.lean ====
section
/-! DEFINITION. The arithmetic of R87 (next values of `ACC`, `WGT`, `LENC`, `POS`), the flag computations
of R28 and the status outputs (R30, R65, R110, R111). -/

namespace Sys2Proof.Machine

/-- `ACC <- (ACC + cv(c) * WGT) mod 103` (R93, R87). -/
def accNext (c : CharOrd) (acc wgt : BitVec 7) : BitVec 7 :=
  BitVec.ofNat 7 ((acc.toNat + cv c * wgt.toNat) % 103)

/-- `WGT <- (WGT + 1) mod 103` (R25, R87). -/
def wgtNext (wgt : BitVec 7) : BitVec 7 := BitVec.ofNat 7 ((wgt.toNat + 1) % 103)

/-- `LENC <- min(LENC + 1, 20)` (R26, R87). -/
def lencNext (lenc : BitVec 5) : BitVec 5 := BitVec.ofNat 5 (min (lenc.toNat + 1) 20)

/-- `POS <- (POS + 1) mod 2^IDX_W` (R27, R87). -/
def posNext (idxW pos : Nat) : Nat := (pos + 1) % 2 ^ idxW

/-- The step wraps `POS`: its old value is `2^IDX_W - 1` (R27), so `POSOVF` is set (R28). -/
def posWraps (idxW pos : Nat) : Bool := decide (pos = 2 ^ idxW - 1)

/-- `PHASE` as a bit (R23). -/
def phaseBit : Phase → Bool
  | .idle => false
  | .run => true

/-- `EMPTY`: `DONE = 1` and `LENC = 0` (R30). -/
def emptyOutput (s : State) : Bool := s.done && decide (s.lenc = 0)

/-- `STATUS[7:0]`, bit 7 first (R65); bit 7 is reserved and reads 0. -/
def statusWord (s : State) : BitVec 8 :=
  0#1 ++ BitVec.ofBool (emptyOutput s) ++ BitVec.ofBool s.posovf ++ BitVec.ofBool s.chkskip ++
    BitVec.ofBool s.unsup ++ BitVec.ofBool s.err ++ BitVec.ofBool s.done ++ BitVec.ofBool (phaseBit s.phase)

/-- `CHKVAL` is `ACC` (R30). -/
def chkvalOutput (s : State) : BitVec 7 := s.acc

/-- `UWSEL` as a function of `LENC` (R110). -/
def uwselOf (lenc : Nat) : BitVec 2 :=
  if lenc < 13 then 0 else if lenc < 17 then 1 else if lenc < 20 then 2 else 3

/-- `UW` in hundredths as a function of `UWSEL` (R111). -/
def uwOf (sel : BitVec 2) : BitVec 7 :=
  if sel = 0 then 85 else if sel = 1 then 75 else if sel = 2 then 65 else 55

/-- `UWSEL` (R30, R110). -/
def uwselOutput (s : State) : BitVec 2 := uwselOf s.lenc.toNat

/-- `UW` (R30, R111). -/
def uwOutput (s : State) : BitVec 7 := uwOf (uwselOutput s)

/-- The five status outputs together (R30, R69). -/
structure Outputs where
  status : BitVec 8
  chkval : BitVec 7
  uwsel : BitVec 2
  uw : BitVec 7
  empty : Bool
  deriving DecidableEq, Repr

/-- What the block drives between two steps: a pure function of the registers (R30). -/
def outputs (s : State) : Outputs :=
  { status := statusWord s, chkval := chkvalOutput s, uwsel := uwselOutput s, uw := uwOutput s,
    empty := emptyOutput s }

end Sys2Proof.Machine
end

