-- ==== Sys2Proof/Machine/Ops.lean ====
section
/-! DEFINITION. The operations the commands share: `frame_init()`, `emit`, the PROM read that emits, taking
the fault IllegalCommand, RESET (the only way out of it) and power-up. -/

namespace Sys2Proof.Machine

/-- `frame_init()` (R33): writes neither `PHASE` nor `ERR`. -/
def frameInit (s : State) : State :=
  { s with acc := 1, wgt := 1, lenc := 0, pos := 0,
           done := false, unsup := false, chkskip := false, posovf := false }

/-- `emit(role, idx, p)`: append one record to `OUT` (R10, R31). -/
def emit (role : Role) (idx : Nat) (p : Pattern) (s : State) : State :=
  { s with out := s.out ++ [⟨role, idx, p⟩] }

/-- `emit(role, idx, PromRead(a))`: the read gives a Pattern at every address the commands present here
(R83), so the other case, which appends nothing, is never taken (`promRead_data`, `promRead_startAddr`,
`promRead_stopAddr`). -/
def emitProm (role : Role) (idx : Nat) (a : PromAddr) (s : State) : State :=
  match promRead s.cfg a with
  | some p => emit role idx p s
  | none => s

/-- `raise IllegalCommand(w)` while `ERR = 0` (R131, R138): the whole entry is `ERR <- 1`. The offending
word is not kept (R130). -/
def raiseIllegalCommand (s : State) : State := { s with err := true }

/-- RESET (R150): the only exit from `ERR = 1` (R139) and from the powered-up state (R153). `OUT` and the
PROM are untouched. -/
def resetBlock (s : State) : State :=
  frameInit { s with phase := .idle, err := false, booted := true }

/-- Power lost and applied again (R145, R153): every register is unspecified, so each takes a free value;
the PROM is non-volatile, and the records already in `OUT` stay there (R31; log 4, log 14). `POS` is a
register of `IDX_W` bits, hence the residue. -/
def powerUp (s : State) : State :=
  { s with
    phase := Config.powerUpPhase s.powerUps
    acc := Config.powerUpAcc s.powerUps
    wgt := Config.powerUpWgt s.powerUps
    lenc := Config.powerUpLenc s.powerUps
    pos := Config.powerUpPos s.powerUps % 2 ^ s.cfg.idxW
    done := Config.powerUpDone s.powerUps
    err := Config.powerUpErr s.powerUps
    unsup := Config.powerUpUnsup s.powerUps
    chkskip := Config.powerUpChkskip s.powerUps
    posovf := Config.powerUpPosovf s.powerUps
    booted := false
    powerUps := s.powerUps + 1 }

end Sys2Proof.Machine
end

