-- ==== Sys2Proof/Machine/Char.lean ====
section
/-! DEFINITION. The CHAR command (R90 to R95). -/

namespace Sys2Proof.Machine

/-- Action 2 of R90: in IDLE, `frame_init()`, the Start record (R91), `PHASE <- 1`. -/
def openFrame (s : State) : State :=
  match s.phase with
  | .idle => { emitProm .start 0 startAddr (frameInit s) with phase := .run }
  | .run => s

/-- Action 3 of R90: the Data record of a supported character, or `UNSUP <- 1` (R92). -/
def dataSymbol (c : CharOrd) (s : State) : State :=
  if supported c then emitProm .data s.pos (dataAddr c) s else { s with unsup := true }

/-- Actions 4 to 8 of R90, all from the values before action 4 (R93, R94). -/
def accumulate (c : CharOrd) (s : State) : State :=
  { s with
    acc := accNext c s.acc s.wgt
    wgt := wgtNext s.wgt
    lenc := lencNext s.lenc
    posovf := s.posovf || posWraps s.cfg.idxW s.pos
    pos := posNext s.cfg.idxW s.pos }

/-- CHAR c (R90). Action 1: with `ERR = 1` nothing happens. -/
def execChar (c : CharOrd) (s : State) : Host.Outcome State Fault Refusal :=
  if s.err then .next s
  else .next (accumulate c (dataSymbol c (openFrame s)))

end Sys2Proof.Machine
end

