-- ==== Sys2Proof/Machine/EndFrame.lean ====
section
/-! DEFINITION. The END command (R100 to R104). -/

namespace Sys2Proof.Machine

/-- Action 2 of R100: the empty string (R101). -/
def emptyFrame (s : State) : State := { frameInit s with done := true }

/-- Actions 3 and 4 of R100: the Checksum record where `ChkPattern(ACC)` is a Pattern, otherwise
`CHKSKIP <- 1` (R102). -/
def checksumSymbol (s : State) : State :=
  match chkPattern s.cfg s.acc with
  | some p => emit .checksum 0 p s
  | none => { s with chkskip := true }

/-- Actions 3 to 7 of R100: Checksum, Stop (R103), `PHASE <- 0`, `DONE <- 1`. -/
def closeFrame (s : State) : State :=
  { emitProm .stop 0 stopAddr (checksumSymbol s) with phase := .idle, done := true }

/-- END (R100). Action 1: with `ERR = 1` nothing happens. -/
def execEnd (s : State) : Host.Outcome State Fault Refusal :=
  if s.err then .next s
  else
    match s.phase with
    | .idle => .next (emptyFrame s)
    | .run => .next (closeFrame s)

end Sys2Proof.Machine
end

