-- ==== Sys2Proof/Machine/Dispatch.lean ====
section
/-! DEFINITION. exec: one arm per constructor of Instr. -/

namespace Sys2Proof.Machine

def exec (i : Instr) (s : State) : Host.Outcome State Fault Refusal :=
  match i with
  | .char c => Sys2Proof.Machine.execChar c s
  | .endFrame => Sys2Proof.Machine.execEnd s

end Sys2Proof.Machine
end

