-- ==== Sys2Proof/Machine/Port.lean ====
section
/-! DEFINITION. What one presented event does (R137): RESET first, then ERR, then the decoder, then exec. -/

namespace Sys2Proof.Machine

/-- Checks (2) to (4) of R137 on a command word, after the boot requirement of R153: before the first
RESET no rule describes the block; with `ERR = 1` the word is ignored, legal or not (R131); an illegal word
raises IllegalCommand; otherwise CHAR or END runs. -/
def runCommand (w : CmdWord) (s : State) : Host.Outcome State Fault Refusal :=
  if s.booted then
    if s.err then .next s
    else
      match decode w with
      | .ok i => exec i s
      | .error .illegalCommand => .next (raiseIllegalCommand s)
  else .refused .commandBeforeReset

/-- One event. RESET wins over a command word presented together with it, which is discarded (R150). -/
def runEvent (e : Event) (s : State) : Host.Outcome State Fault Refusal :=
  match e with
  | .command w => runCommand w s
  | .reset _ => .next (resetBlock s)
  | .powerCycle => .next (powerUp s)

/-- Take the oldest event of the port; with nothing presented the block holds its registers (R145). -/
def takeEvent (s : State) : Host.Outcome State Fault Refusal :=
  match s.port with
  | [] => .next s
  | e :: rest => runEvent e { s with port := rest }

/-- The word presented next, in front of whatever the port holds (log 3). -/
def presentWord (w : CmdWord) (s : State) : State := { s with port := .command w :: s.port }

end Sys2Proof.Machine
end

