-- ==== Sys2Proof/Machine/Step.lean ====
section
/-! DEFINITION. One step of the machine, and placing the word it takes next. -/

namespace Sys2Proof.Machine

/-- One atomic step: the oldest event at the port (R12). -/
def step (s : State) : Host.Outcome State Fault Refusal := takeEvent s

/-- `s` with the command word of the low `nbits` bits of `w` presented next. The block has no stored
program (R22): a program is the sequence of words the host presents, so this stands for the host's
presenting one word (log 3). -/
def State.withFetchWord (s : State) (nbits w : Nat) : State :=
  presentWord (BitVec.ofNat 8 (w % 2 ^ nbits)) s

end Sys2Proof.Machine
end

