-- ==== Sys2Proof/Machine/Listing.lean ====
section
/-! DEFINITION. The listing syntax (R70) and the pseudo-commands with their expansions (R71): from the text of
a listing to the events a host presents. -/

namespace Sys2Proof.Machine

/-- What one line of a listing says (R70, R71). -/
inductive ListingItem where
  | char (c : CharOrd)
  | endFrame
  | str (text : List CharOrd)
  | encodeText (text : List CharOrd)
  | rawWord (w : CmdWord)
  | reset
  deriving DecidableEq, Repr

/-- The command event of an instruction. -/
def commandOf (i : Instr) : Event := .command (encode i)

/-- One CHAR per character, left to right (R61, R71 `STR`). -/
def strEvents (text : List CharOrd) : List Event := text.map fun c => commandOf (.char c)

/-- The characters of a string and then END (R71 `ENCODE`). -/
def encodeEvents (text : List CharOrd) : List Event := strEvents text ++ [commandOf .endFrame]

/-- The expansion of an item (R71). -/
def expandItem : ListingItem → List Event
  | .char c => [commandOf (.char c)]
  | .endFrame => [commandOf .endFrame]
  | .str text => strEvents text
  | .encodeText text => encodeEvents text
  | .rawWord w => [.command w]
  | .reset => [.reset none]

/-- The events of a whole listing. -/
def expandListing (items : List ListingItem) : List Event := items.flatMap expandItem

/-! The text form. Blanks between the parts of a line are spaces or tabs, and a line ends at the character 10
(DESIGN CHOICE, log 11). -/

/-- A blank inside a line. -/
def isBlank (c : Char) : Bool := c.toNat == 32 || c.toNat == 9

/-- A printable ASCII character (R70). -/
def isPrintable (c : Char) : Bool := decide (32 ≤ c.toNat) && decide (c.toNat ≤ 126)

/-- The rest of a line after its item: blanks, then nothing or a comment (R70). -/
def atLineEnd (cs : List Char) : Bool :=
  match cs.dropWhile isBlank with
  | [] => true
  | c :: _ => c == ';'

/-- The text after a word it begins with. -/
def afterWord : List Char → List Char → Option (List Char)
  | [], cs => some cs
  | _ :: _, [] => none
  | w :: ws, c :: cs => if w = c then afterWord ws cs else none

/-- The value of a digit. -/
def digitValue (base : Nat) (c : Char) : Option Nat :=
  let n := c.toNat
  let v := if 48 ≤ n ∧ n ≤ 57 then n - 48 else if 65 ≤ n ∧ n ≤ 70 then n - 55
    else if 97 ≤ n ∧ n ≤ 102 then n - 87 else 16
  if v < base then some v else none

/-- The value of a run of digits after the value `acc` of those before. -/
def digitsValue (base acc : Nat) : List Char → Option Nat
  | [] => some acc
  | c :: cs =>
    match digitValue base c with
    | some v => digitsValue base (acc * base + v) cs
    | none => none

/-- A number written decimal or `0x` hex (R70). -/
def numberValue : List Char → Option Nat
  | [] => none
  | '0' :: 'x' :: d :: ds => digitsValue 16 0 (d :: ds)
  | d :: ds => digitsValue 10 0 (d :: ds)

/-- A character that belongs to a number. -/
def isWordChar (c : Char) : Bool := c.isAlphanum

/-- A number and the text after it. -/
def readNumber (cs : List Char) : Option (Nat × List Char) :=
  match numberValue (cs.takeWhile isWordChar) with
  | some n => some (n, cs.dropWhile isWordChar)
  | none => none

/-- `<ord>`: one printable character in single quotes, or a number 0 to 127 (R70), and the text after it. -/
def readOrd (cs : List Char) : Option (CharOrd × List Char) :=
  match cs with
  | q :: x :: q' :: rest =>
    if q.toNat = 39 ∧ q'.toNat = 39 then
      if isPrintable x then some (BitVec.ofNat 7 x.toNat, rest) else none
    else
      match readNumber cs with
      | some (n, rest') => if n ≤ 127 then some (BitVec.ofNat 7 n, rest') else none
      | none => none
  | _ =>
    match readNumber cs with
    | some (n, rest') => if n ≤ 127 then some (BitVec.ofNat 7 n, rest') else none
    | none => none

/-- Where a reader of quoted text stands: between characters, after a backslash, or inside `\xHH`. -/
inductive TextMode where
  | plain
  | escape
  | hexHigh
  | hexLow (high : Nat)
  deriving DecidableEq, Repr

/-- Put a character in front of the text read after it. -/
def withChar (n : Nat) (r : Option (List CharOrd × List Char)) : Option (List CharOrd × List Char) :=
  match r with
  | some (text, rest) => some (BitVec.ofNat 7 n :: text, rest)
  | none => none

/-- The text of a quoted string after its opening quote (34 is the quote, 92 the backslash), with the three
escapes of R71, and what follows the closing quote. -/
def readText (m : TextMode) : List Char → Option (List CharOrd × List Char)
  | [] => none
  | c :: rest =>
    match m with
    | .plain =>
      if c.toNat = 34 then some ([], rest)
      else if c.toNat = 92 then readText .escape rest
      else if isPrintable c then withChar c.toNat (readText .plain rest)
      else none
    | .escape =>
      if c.toNat = 92 ∨ c.toNat = 34 then withChar c.toNat (readText .plain rest)
      else if c = 'x' then readText .hexHigh rest
      else none
    | .hexHigh =>
      match digitValue 8 c with
      | some a => readText (.hexLow a) rest
      | none => none
    | .hexLow a =>
      match digitValue 16 c with
      | some b => withChar (16 * a + b) (readText .plain rest)
      | none => none

/-- A quoted string and the text after it. -/
def readQuoted (cs : List Char) : Option (List CharOrd × List Char) :=
  match cs with
  | c :: rest => if c.toNat = 34 then readText .plain rest else none
  | [] => none

/-- The operand text of a pseudo-command: `none` where the line does not begin with the name and a blank. -/
def operandOf (name : String) (cs : List Char) : Option (List Char) :=
  match afterWord name.toList cs with
  | some (b :: rest) => if isBlank b then some (rest.dropWhile isBlank) else none
  | _ => none

/-- An item followed by the end of its line. -/
def endLine (r : ListingItem × List Char) : Option (List ListingItem) :=
  if atLineEnd r.2 then some [r.1] else none

/-- `.word 0xNN` has exactly two hex digits (R71). -/
def readRawWord (cs : List Char) : Option (CmdWord × List Char) :=
  match cs with
  | '0' :: 'x' :: h :: l :: rest =>
    match digitValue 16 h, digitValue 16 l with
    | some a, some b => some (BitVec.ofNat 8 (16 * a + b), rest)
    | _, _ => none
  | _ => none

/-- The item of one line; no item for a blank or comment line; `none` for a line that is no listing line. -/
def parseLine (line : List Char) : Option (List ListingItem) :=
  let cs := line.dropWhile isBlank
  if atLineEnd cs then some []
  else
    match operandOf "CHAR" cs with
    | some a => (readOrd a).bind fun r => endLine (.char r.1, r.2)
    | none =>
      match operandOf "STR" cs with
      | some a => (readQuoted a).bind fun r => endLine (.str r.1, r.2)
      | none =>
        match operandOf "ENCODE" cs with
        | some a => (readQuoted a).bind fun r => endLine (.encodeText r.1, r.2)
        | none =>
          match operandOf ".word" cs with
          | some a => (readRawWord a).bind fun r => endLine (.rawWord r.1, r.2)
          | none =>
            match afterWord "RESET".toList cs with
            | some rest => endLine (.reset, rest)
            | none =>
              match afterWord "END".toList cs with
              | some rest => endLine (.endFrame, rest)
              | none => none

/-- The lines of a text: a line ends at the character 10 and at no other (DESIGN CHOICE, log 11: R70 says only
"One command per line"; a character 13 before it is no blank and makes the line unreadable). -/
def linesOf : List Char → List (List Char)
  | [] => [[]]
  | c :: cs =>
    if c.toNat = 10 then [] :: linesOf cs
    else
      match linesOf cs with
      | [] => [[c]]
      | l :: ls => (c :: l) :: ls

/-- The items of the lines of a listing, in order. -/
def parseLines : List (List Char) → Option (List ListingItem)
  | [] => some []
  | l :: ls =>
    match parseLine l, parseLines ls with
    | some a, some b => some (a ++ b)
    | _, _ => none

/-- The events of a listing's text (R70, R71). -/
def assemble (text : String) : Option (List Event) := (parseLines (linesOf text.toList)).map expandListing

end Sys2Proof.Machine
end

