-- ==== Sys2Proof/Machine/Records.lean ====
section
/-! DEFINITION. Symbol records on the wires of the SYM port (R62 to R64, R69). -/

namespace Sys2Proof.Machine

/-- `ROLE` codes (R64). -/
def roleCode : Role → BitVec 2
  | .start => 0b00
  | .data => 0b01
  | .checksum => 0b10
  | .stop => 0b11

/-- The role of a `ROLE` code; all four codes are used (R64). -/
def roleOfCode (b : BitVec 2) : Role :=
  if b = 0b00 then .start else if b = 0b01 then .data else if b = 0b10 then .checksum else .stop

/-- The record word `ROLE, IDX, N13, PAT` of `IDX_W + 16` bits (R62); an index is carried modulo `2^IDX_W`. -/
def recordWord (idxW : Nat) (r : SymRecord) : BitVec (idxW + 16) :=
  (roleCode r.role ++ (BitVec.ofNat idxW r.idx ++ (patternN13 r.pattern ++ patternPat r.pattern))).cast
    (by omega)

/-- The record a word carries, field by field (R62, R63); `none` where `N13`, `PAT` are no Pattern. -/
def recordOfWord (idxW : Nat) (b : BitVec (idxW + 16)) : Option SymRecord :=
  match patternOfWires (b.extractLsb' 13 1) (b.extractLsb' 0 13) with
  | some p => some ⟨roleOfCode (b.extractLsb' (idxW + 14) 2), (b.extractLsb' 14 idxW).toNat, p⟩
  | none => none

/-- The words that leave on the SYM port, in the order appended (R54, R69). -/
def symWords (s : State) : List (BitVec (s.cfg.idxW + 16)) := s.out.map (recordWord s.cfg.idxW)

end Sys2Proof.Machine
end

