-- ==== Sys2Proof/Machine/Reference.lean ====
section
/-! DEFINITION. The source's function `encode(s)` over whole strings and unbounded integers (R115), and the
residue recurrence of R117. -/

namespace Sys2Proof.Machine

/-- The sum of `(c - 32) * j` over the characters, the first of them at 1-based position `j` (R115). -/
def weightedSum (j : Nat) : List CharOrd → Int
  | [] => 0
  | c :: cs => ((c.toNat : Int) - 32) * j + weightedSum (j + 1) cs

/-- `total` of R115: signed and unbounded. -/
def checksumTotal (cs : List CharOrd) : Int := 104 + weightedSum 1 cs

/-- `r = total mod 103` (R115). -/
def remainder (cs : List CharOrd) : Nat := residue103 (checksumTotal cs)

/-- The remainder as the PROM address that `ChkPattern` reads (R85). -/
def remainderAddr (cs : List CharOrd) : BitVec 7 := BitVec.ofNat 7 (remainder cs)

/-- The Data record of one character at true 0-based position `i`, where it is supported (R115). -/
def dataRecord (g : Config) (i : Nat) (c : CharOrd) : List SymRecord :=
  if supported c then
    match promRead g (dataAddr c) with
    | some p => [⟨.data, i, p⟩]
    | none => []
  else []

/-- The Data records of a string whose first character is at position `i` (R115). -/
def dataRecords (g : Config) (i : Nat) : List CharOrd → List SymRecord
  | [] => []
  | c :: cs => dataRecord g i c ++ dataRecords g (i + 1) cs

/-- The Checksum record, where the remainder has a pattern (R115). -/
def checksumRecord (g : Config) (cs : List CharOrd) : List SymRecord :=
  match chkPattern g (remainderAddr cs) with
  | some p => [⟨.checksum, 0, p⟩]
  | none => []

/-- The unit width in hundredths for an input length (R115, R111). -/
def widthOfLength (n : Nat) : Nat := if n < 13 then 85 else if n ≤ 16 then 75 else if n ≤ 19 then 65 else 55

/-- The pair (`seq`, `width`) of R115; `width` is `none` where the source gives none (R113). -/
structure EncodingResult where
  seq : List SymRecord
  width : Option Nat
  deriving DecidableEq, Repr

/-- `encode(s)` (R115). -/
def encodeString (g : Config) (cs : List CharOrd) : EncodingResult :=
  match cs with
  | [] => ⟨[], none⟩
  | _ :: _ =>
    ⟨⟨.start, 0, patternStart⟩ :: (dataRecords g 0 cs ++ checksumRecord g cs ++ [⟨.stop, 0, patternStop⟩]),
      some (widthOfLength cs.length)⟩

/-- A record with its index modulo `2^IDX_W` (R116 (a)). -/
def wrapIndex (idxW : Nat) (r : SymRecord) : SymRecord := { r with idx := r.idx % 2 ^ idxW }

/-- One step of the recurrence of R117 on `(a, w)`. -/
def residueStep (aw : Nat × Nat) (c : CharOrd) : Nat × Nat :=
  ((aw.1 + cv c * aw.2) % 103, (aw.2 + 1) % 103)

/-- `(a_k, w_k)` of R117 for a string of `k` characters. -/
def residues (cs : List CharOrd) : Nat × Nat := cs.foldl residueStep (1, 1)

end Sys2Proof.Machine
end

