-- ==== Sys2Proof/Machine/Consumer.lean ====
section
/-! DEFINITION. What a consumer reads in `OUT` (R67, R120, R121): modules drawn, frames, the order of roles. -/

namespace Sys2Proof.Machine

/-- The modules drawn for a sequence of records: left to right within a record, records in the order
appended, "with no gap" (R67). -/
def moduleStream (rs : List SymRecord) : List Bool := rs.flatMap fun r => patternModules r.pattern

/-- The number of modules of a sequence of records (R67, R121). -/
def moduleCount (rs : List SymRecord) : Nat := (rs.map fun r => patternLength r.pattern).sum

/-- The records of a role. -/
def recordsOf (role : Role) (rs : List SymRecord) : List SymRecord := rs.filter fun r => decide (r.role = role)

/-- A run of records begins with a Start record. -/
def startLed : List SymRecord → Bool
  | [] => false
  | r :: _ => decide (r.role = .start)

/-- Split a sequence of records into frames at its Start records (R120). -/
def frames : List SymRecord → List (List SymRecord)
  | [] => []
  | r :: rs =>
    match frames rs with
    | [] => [[r]]
    | f :: fs => if startLed f then [r] :: f :: fs else (r :: f) :: fs

/-- A frame is complete exactly when its last record is a Stop (R120). -/
def frameComplete (f : List SymRecord) : Bool :=
  match f.getLast? with
  | some r => decide (r.role = .stop)
  | none => false

/-- The records from the last Start record on (all of them where there is no Start record). -/
def lastFrame : List SymRecord → List SymRecord
  | [] => []
  | r :: rs => if rs.any (fun q => decide (q.role = .start)) then lastFrame rs else r :: rs

/-- The indices of the Data records. -/
def dataIndices (rs : List SymRecord) : List Nat := (recordsOf .data rs).map fun r => r.idx

/-- Where a reader of `OUT` stands in the order of R35: nothing read yet; a Start or Data record read last;
a Checksum read last; a Stop read last. -/
inductive OutScan where
  | nothing
  | opened
  | checked
  | closed
  deriving DecidableEq, Repr

/-- The order "Start, then Data symbols in input order, then Checksum, then Stop" (R35). A Start may follow
an open frame, since RESET abandons it (R152); nothing else may follow it out of order. -/
def scanRole : OutScan → Role → Option OutScan
  | .nothing, .start => some .opened
  | .opened, .start => some .opened
  | .opened, .data => some .opened
  | .opened, .checksum => some .checked
  | .opened, .stop => some .closed
  | .checked, .stop => some .closed
  | .closed, .start => some .opened
  | _, _ => none

/-- Read records one by one from a position in the order; `none` where one is out of order. -/
def scanFrom : OutScan → List SymRecord → Option OutScan
  | k, [] => some k
  | k, r :: rs =>
    match scanRole k r.role with
    | some k' => scanFrom k' rs
    | none => none

end Sys2Proof.Machine
end

