-- ==== Sys2Proof/Safety.lean ====
section
/-! DEFINITION. The terms of claims: safe states, the invariants of R29, and the shape of `OUT` (R35, R120). -/

namespace Sys2Proof.Machine

/-- A state from which claims about a run start: a RESET has happened (R153) and no illegal word was seen
(R131: "every claim about a run takes ... ERR = 0 throughout as a premise"). -/
def Safe (s : State) : Prop := s.booted = true ∧ s.err = false

/-- The invariants (a) to (f) of R29, with the bound that the width of `POS` gives (R20; log 6). They are
claimed of a block that has been RESET; before that every register is unspecified (R153). -/
structure RegsInv (s : State) : Prop where
  acc_le : s.acc.toNat ≤ 102
  wgt_le : s.wgt.toNat ≤ 102
  lenc_le : s.lenc.toNat ≤ 20
  run_lenc : s.phase = .run → 1 ≤ s.lenc.toNat
  run_done : s.phase = .run → s.done = false
  run_chkskip : s.phase = .run → s.chkskip = false
  done_idle : s.done = true → s.phase = .idle
  chkskip_done : s.chkskip = true → s.done = true
  chkskip_acc : s.chkskip = true → 95 ≤ s.acc.toNat
  chkskip_skip : s.chkskip = true → s.cfg.chkHi = .skip
  wgt_lenc : s.lenc.toNat < 20 → s.wgt.toNat = s.lenc.toNat + 1
  pos_lenc : s.lenc.toNat < 20 → s.pos = s.lenc.toNat % 2 ^ s.cfg.idxW
  fresh : s.phase = .idle → s.done = false →
    s.acc = 1 ∧ s.wgt = 1 ∧ s.lenc = 0 ∧ s.pos = 0 ∧ s.unsup = false ∧ s.chkskip = false ∧ s.posovf = false
  pos_lt : s.pos < 2 ^ s.cfg.idxW

/-- R29 of a state: once a RESET has happened, the invariants hold. -/
def BlockInv (s : State) : Prop := s.booted = true → RegsInv s

/-- A non-empty frame is the latest thing in `OUT`: one is open, or the last one was closed by END. -/
def frameShown (s : State) : Prop := s.phase = .run ∨ (s.done = true ∧ 1 ≤ s.lenc.toNat)

/-- `OUT` keeps the order of R35. A frame is open exactly while the last record read is a Start or Data of
an open frame; after an END in RUN the last record is a Stop; no step leaves a Checksum last (R120). -/
structure OutOrdered (s : State) : Prop where
  order : ∃ k, scanFrom .nothing s.out = some k ∧ k ≠ .checked
  run : s.booted = true → s.phase = .run → scanFrom .nothing s.out = some .opened
  shut : s.booted = true → s.done = true → 1 ≤ s.lenc.toNat → scanFrom .nothing s.out = some .closed

/-- While `POSOVF = 0` the Data indices of the frame shown are positions already taken, in strictly
increasing order (95_test_vectors.md Part 4, property 7; R27, R92). -/
def IndicesIncrease (s : State) : Prop :=
  s.booted = true → frameShown s → s.posovf = false →
    (dataIndices (lastFrame s.out)).Pairwise (· < ·) ∧ ∀ i ∈ dataIndices (lastFrame s.out), i < s.pos

/-- Every record of `OUT` is one the block can form at its index width (R62, R103). -/
def RecordsWellFormed (s : State) : Prop := ∀ r ∈ s.out, r.wf s.cfg.idxW = true

end Sys2Proof.Machine
end

