-- ==== Sys2Proof/Certificates/Slice0/Obligations.lean ====
section
/-! DEFINITION. The statements for the provers, one `def Obligations.<Name> : Prop` each. They hold for every
setting of the parameters of R6, since the state carries them (log 1). -/

open Sys2Proof Sys2Proof.Machine

/-! ## Encodings -/

/-- Words written out from R60 decode to what they stand for: `0ccccccc`, `10000000`, and two illegal words. -/
def Obligations.CommandWordsDecodeAsWritten : Prop :=
  decode 0b01000001 = .ok (.char 0x41) ∧ decode 0b00000000 = .ok (.char 0x00) ∧
  decode 0b01111111 = .ok (.char 0x7F) ∧ decode 0b10000000 = .ok .endFrame ∧
  decode 0b10000001 = .error .illegalCommand ∧ decode 0b11111111 = .error .illegalCommand

/-- R60: bit 7 clear is CHAR with operand `CMD[6:0]`; 0x80 is END; 0x81 to 0xFF is illegal. -/
def Obligations.DecodingFollowsTheCommandFormat : Prop :=
  ∀ w : CmdWord,
    (w.getLsbD 7 = false → decode w = .ok (.char (w.extractLsb' 0 7))) ∧
    (w = 0x80 → decode w = .ok .endFrame) ∧
    (0x81 ≤ w.toNat → decode w = .error .illegalCommand)

/-- Every instruction decodes from its own word, and a word that decodes is the word of what it decodes to. -/
def Obligations.InstructionWordRoundTrip : Prop :=
  (∀ i : Instr, i.wf = true → decode (encode i) = .ok i) ∧
  (∀ (w : CmdWord) (i : Instr), decode w = .ok i → encode i = w)

/-- The same of every sequence of command words (R57, R60, R68: words are decoded one by one). -/
def Obligations.CommandStreamRoundTrip : Prop :=
  (∀ is : List Instr, (∀ i ∈ is, i.wf = true) → decodeWords (is.map encode) = .ok is) ∧
  (∀ (ws : List CmdWord) (is : List Instr), decodeWords ws = .ok is → is.map encode = ws)

/-- R62 to R64: a record's word carries the record, at every index width, and no two records share a word. -/
def Obligations.SymbolRecordRoundTrip : Prop :=
  (∀ (w : Nat) (r : SymRecord), r.idx < 2 ^ w → recordOfWord w (recordWord w r) = some r) ∧
  (∀ (w : Nat) (b : BitVec (w + 16)) (r : SymRecord), recordOfWord w b = some r → recordWord w r = b)

/-- R62, R64: the places of `ROLE`, `IDX`, `N13` and `PAT` in a record's word, and the role codes. -/
def Obligations.SymbolRecordFieldPlaces : Prop :=
  (∀ (w : Nat) (r : SymRecord),
    (recordWord w r).extractLsb' (w + 14) 2 = roleCode r.role ∧
    (recordWord w r).extractLsb' 14 w = BitVec.ofNat w r.idx ∧
    (recordWord w r).extractLsb' 13 1 = patternN13 r.pattern ∧
    (recordWord w r).extractLsb' 0 13 = patternPat r.pattern) ∧
  roleCode .start = 0b00#2 ∧ roleCode .data = 0b01#2 ∧ roleCode .checksum = 0b10#2 ∧ roleCode .stop = 0b11#2

/-- R63: module `m[k]` is `PAT[12 - k]`, the unused bits are 0, `N13` tells the length, and the wires give the
Pattern back. -/
def Obligations.PatternOnWires : Prop :=
  (∀ (p : Pattern) (k : Nat), k < patternLength p →
    (patternModules p)[k]? = some ((patternPat p).getLsbD (12 - k))) ∧
  (∀ p : Pattern, (patternModules p).length = patternLength p ∧ patternLength p = 11 + 2 * (patternN13 p).toNat ∧
    (patternLength p = 11 ∨ patternLength p = 13) ∧
    (patternLength p = 11 → (patternPat p).extractLsb' 0 2 = 0b00#2) ∧
    patternOfWires (patternN13 p) (patternPat p) = some p) ∧
  (patternN13 patternStart = 0 ∧ patternPat patternStart = 0x1A40 ∧
    patternN13 patternStop = 1 ∧ patternPat patternStop = 0x18EB)

/-! ## The pattern ROM -/

/-- R43, R52: what each PROM address holds under every setting of the parameters, and the wires `V`, `N13`, `PAT`
of the four entries that no parameter may change. -/
def Obligations.PromAddressMap : Prop :=
  ∀ (g : Config) (a : PromAddr),
    (∀ h : a.toNat < 33, promRead g a = some (.eleven g.promData[a.toNat])) ∧
    (a = 33 → promRead g a = some (.eleven 0b10100011000)) ∧
    (a = 34 → promRead g a = some (.eleven 0b10001011000)) ∧
    (∀ h : 35 ≤ a.toNat ∧ a.toNat ≤ 94, promRead g a = some (.eleven (g.promData[a.toNat - 2]'(by omega)))) ∧
    (∀ h : 95 ≤ a.toNat ∧ a.toNat ≤ 102,
      (g.chkHi = .skip → promRead g a = none) ∧
      (g.chkHi = .emit → promRead g a = some (.eleven (g.promHi[a.toNat - 95]'(by omega))))) ∧
    (a = 103 ∨ a = 105 ∨ 107 ≤ a.toNat → promRead g a = none) ∧
    (a = 104 → promRead g a = some (.eleven 0b11010010000)) ∧
    (a = 106 → promRead g a = some (.thirteen 0b1100011101011)) ∧
    promWord g 33 = 0b10#2 ++ 0x1460#13 ∧ promWord g 34 = 0b10#2 ++ 0x1160#13 ∧
    promWord g 104 = 0b10#2 ++ 0x1A40#13 ∧ promWord g 106 = 0b11#2 ++ 0x18EB#13

/-- R42: the 15-bit PROM word is `V`, `N13`, `PAT`; all zeros where unprogrammed. -/
def Obligations.PromWordLayout : Prop :=
  ∀ (g : Config) (a : PromAddr),
    (promRead g a = none → promWord g a = 0) ∧
    ((promWord g a).getLsbD 14 = true ↔ promRead g a ≠ none) ∧
    (∀ p, promRead g a = some p →
      (promWord g a).extractLsb' 13 1 = patternN13 p ∧ (promWord g a).extractLsb' 0 13 = patternPat p ∧
      ((promWord g a).getLsbD 13 = true ↔ patternLength p = 13) ∧
      (∀ k, k < patternLength p → (patternModules p)[k]? = some ((promWord g a).getLsbD (12 - k))) ∧
      (patternLength p = 11 → (promWord g a).extractLsb' 0 2 = 0b00#2))

/-- R44, R45: the shape of the default table (PRESUMED general knowledge, log 2): each of the 95 data patterns
begins with a bar, ends with a space, has six runs of 1 to 4 modules that add to 11, an even number of bar
modules, and no two addresses share a pattern. -/
def Obligations.DefaultDataPatternsShape : Prop :=
  (∀ a ∈ List.range 95, ∃ p, promContent defaultConfig a = some p ∧
    (patternModules p).head? = some true ∧ (patternModules p).getLast? = some false ∧
    (patternWidths p).length = 6 ∧ (patternWidths p).sum = 11 ∧ (∀ n ∈ patternWidths p, 1 ≤ n ∧ n ≤ 4) ∧
    ((patternModules p).countP id) % 2 = 0) ∧
  ((List.range 95).map (promContent defaultConfig)).Nodup

/-- R85: which remainders resolve to a pattern, and that ordinary printable input reaches the ones that may not. -/
def Obligations.ChecksumPatternResolution : Prop :=
  (∀ (g : Config) (r : BitVec 7), r.toNat ≤ 102 →
    chkPattern g r = promRead g r ∧
    (r.toNat ≤ 94 → ∃ d, chkPattern g r = some (.eleven d)) ∧
    (∀ h : 95 ≤ r.toNat ∧ r.toNat ≤ 102,
      (g.chkHi = .skip → chkPattern g r = none) ∧
      (g.chkHi = .emit → chkPattern g r = some (.eleven (g.promHi[r.toNat - 95]'(by omega)))))) ∧
  remainder [0x7E] = 95 ∧ remainder [0x21, 0x4F] = 96 ∧ remainder [0x20, 0x50] = 97 ∧
  remainder [0x21, 0x50] = 98 ∧ remainder [0x20, 0x51] = 99 ∧ remainder [0x21, 0x51] = 100 ∧
  remainder [0x20, 0x52] = 101 ∧ remainder [0x21, 0x52] = 102

/-! ## Character classes and arithmetic -/

/-- R80: `supported(c)` exactly when 0x20 ≤ c ≤ 0x7E; 95 ordinals are supported and 33 are not. -/
def Obligations.SupportedOrdinals : Prop :=
  (∀ c : CharOrd, supported c = true ↔ 0x20 ≤ c.toNat ∧ c.toNat ≤ 0x7E) ∧
  ((List.range 128).filter fun n => supported (BitVec.ofNat 7 n)).length = 95 ∧
  ((List.range 128).filter fun n => !supported (BitVec.ofNat 7 n)).length = 33

/-- R81: `cv(c)` is the Euclidean residue of `c - 32`, its two explicit forms, its use in place of the signed
value, and the rule's examples. -/
def Obligations.ChecksumValueOfOrdinal : Prop :=
  (∀ c : CharOrd,
    ((cv c : Int) = ((c.toNat : Int) - 32) % 103) ∧
    (32 ≤ c.toNat → cv c = c.toNat - 32 ∧ cv c ≤ 95) ∧
    (c.toNat < 32 → cv c = c.toNat + 71 ∧ 71 ≤ cv c ∧ cv c ≤ 102)) ∧
  (∀ (c : CharOrd) (a w : Int), (a + cv c * w) % 103 = (a + ((c.toNat : Int) - 32) * w) % 103) ∧
  (cv 0x41 = 33 ∧ cv 0x20 = 0 ∧ cv 0x7E = 94 ∧ cv 0x7F = 95 ∧ cv 0x01 = 72 ∧ cv 0x00 = 71 ∧ cv 0x1F = 102)

/-- R82: the PROM address of a supported character. -/
def Obligations.DataAddressOfOrdinal : Prop :=
  ∀ c : CharOrd, supported c = true →
    (dataAddr c).toNat = c.toNat - 32 ∧ (dataAddr c).toNat ≤ 94 ∧ (dataAddr c).toNat = cv c

/-- R117: the 7-bit recurrences lose nothing that the source's unbounded total and position keep. -/
def Obligations.ResidueRecurrencesAreExact : Prop :=
  ∀ cs : List CharOrd,
    (residues cs).2 = (cs.length + 1) % 103 ∧ ((residues cs).1 : Int) = (104 + weightedSum 1 cs) % 103

/-! ## CHAR and END -/

/-- R90, R91 to R94: the whole effect of CHAR in every state, its encoding and its worked example. In IDLE the
frame registers are first reloaded and the Start record is emitted. -/
def Obligations.CharStepEffect : Prop :=
  (∀ (c : CharOrd) (s : State), s.err = true → exec (.char c) s = .next s) ∧
  (∀ (c : CharOrd) (s : State), s.err = false → s.phase = .idle →
    ∃ ds : List SymRecord,
      (supported c = true → ∃ d, promRead s.cfg (BitVec.ofNat 7 (c.toNat - 32)) = some (.eleven d) ∧
        ds = [⟨.data, 0, .eleven d⟩]) ∧
      (supported c = false → ds = []) ∧
      exec (.char c) s = .next { s with
        phase := .run
        acc := BitVec.ofNat 7 ((1 + cv c * 1) % 103)
        wgt := 2
        lenc := 1
        pos := 1 % 2 ^ s.cfg.idxW
        done := false
        unsup := !supported c
        chkskip := false
        posovf := decide (0 = 2 ^ s.cfg.idxW - 1)
        out := s.out ++ [⟨.start, 0, .eleven 0b11010010000⟩] ++ ds }) ∧
  (∀ (c : CharOrd) (s : State), s.err = false → s.phase = .run →
    ∃ ds : List SymRecord,
      (supported c = true → ∃ d, promRead s.cfg (BitVec.ofNat 7 (c.toNat - 32)) = some (.eleven d) ∧
        ds = [⟨.data, s.pos, .eleven d⟩]) ∧
      (supported c = false → ds = []) ∧
      exec (.char c) s = .next { s with
        acc := BitVec.ofNat 7 ((s.acc.toNat + cv c * s.wgt.toNat) % 103)
        wgt := BitVec.ofNat 7 ((s.wgt.toNat + 1) % 103)
        lenc := BitVec.ofNat 5 (min (s.lenc.toNat + 1) 20)
        pos := (s.pos + 1) % 2 ^ s.cfg.idxW
        unsup := s.unsup || !supported c
        posovf := s.posovf || decide (s.pos = 2 ^ s.cfg.idxW - 1)
        out := s.out ++ ds }) ∧
  (∀ w : CmdWord, w.getLsbD 7 = false → decode w = .ok (.char (w.extractLsb' 0 7))) ∧
  exec (.char 0x41) State.reset = .next { State.reset with
    phase := .run, acc := 34, wgt := 2, lenc := 1, pos := 1,
    out := [⟨.start, 0, .eleven 0b11010010000⟩, ⟨.data, 0, .eleven 0b10100011000⟩] }

/-- The frame of CHAR: what it never changes, and which flags change only as R28 and R90 say. -/
def Obligations.CharFrame : Prop :=
  ∀ (c : CharOrd) (s t : State), exec (.char c) s = .next t →
    t.err = s.err ∧ t.cfg = s.cfg ∧ t.booted = s.booted ∧ t.powerUps = s.powerUps ∧ t.port = s.port ∧
    (∀ a, promRead t.cfg a = promRead s.cfg a) ∧
    (∀ (k : Nat) (r : SymRecord), s.out[k]? = some r → t.out[k]? = some r) ∧
    (s.phase = .run → t.phase = .run ∧ t.done = s.done ∧ t.chkskip = s.chkskip) ∧
    (s.phase = .run → supported c = true → t.unsup = s.unsup) ∧
    (s.phase = .run → s.pos ≠ 2 ^ s.cfg.idxW - 1 → t.posovf = s.posovf) ∧
    (supported c = false → s.phase = .run → t.out = s.out) ∧
    (s.err = true → t = s)

/-- R100 to R103: the whole effect of END in every state, its encoding and its worked example. -/
def Obligations.EndStepEffect : Prop :=
  (∀ s : State, s.err = true → exec .endFrame s = .next s) ∧
  (∀ s : State, s.err = false → s.phase = .idle →
    exec .endFrame s = .next { s with
      acc := 1, wgt := 1, lenc := 0, pos := 0,
      done := true, unsup := false, chkskip := false, posovf := false }) ∧
  (∀ (s : State) (p : Pattern), s.err = false → s.phase = .run → chkPattern s.cfg s.acc = some p →
    exec .endFrame s = .next { s with
      phase := .idle, done := true,
      out := s.out ++ [⟨.checksum, 0, p⟩, ⟨.stop, 0, .thirteen 0b1100011101011⟩] }) ∧
  (∀ s : State, s.err = false → s.phase = .run → chkPattern s.cfg s.acc = none →
    exec .endFrame s = .next { s with
      phase := .idle, done := true, chkskip := true,
      out := s.out ++ [⟨.stop, 0, .thirteen 0b1100011101011⟩] }) ∧
  decode 0x80 = .ok .endFrame ∧
  (∃ t : State, exec .endFrame { State.reset with phase := .run, acc := 34, wgt := 2, lenc := 1, pos := 1 } = .next t ∧
    t = { State.reset with
      acc := 34, wgt := 2, lenc := 1, pos := 1, done := true,
      out := [⟨.checksum, 0, .eleven 0b10001011000⟩, ⟨.stop, 0, .thirteen 0b1100011101011⟩] } ∧
    (outputs t).chkval = 34 ∧ (outputs t).uw = 85)

/-- R101: END in IDLE is one encoding of the empty string: nothing is emitted and the status outputs say so. -/
def Obligations.EndOfEmptyString : Prop :=
  ∀ s : State, s.err = false → s.phase = .idle →
    ∃ t, exec .endFrame s = .next t ∧ t.out = s.out ∧ t.phase = .idle ∧ t.err = false ∧
      t.acc = 1 ∧ t.wgt = 1 ∧ t.lenc = 0 ∧ t.pos = 0 ∧ t.done = true ∧
      t.unsup = false ∧ t.chkskip = false ∧ t.posovf = false ∧
      outputs t = { status := 0x42, chkval := 1, uwsel := 0, uw := 85, empty := true }

/-- The frame of END: what it never changes, and what END in RUN leaves of the closed frame (R100). -/
def Obligations.EndFrameUnchanged : Prop :=
  ∀ s t : State, exec .endFrame s = .next t →
    t.err = s.err ∧ t.cfg = s.cfg ∧ t.booted = s.booted ∧ t.powerUps = s.powerUps ∧ t.port = s.port ∧
    (∀ a, promRead t.cfg a = promRead s.cfg a) ∧
    (∀ (k : Nat) (r : SymRecord), s.out[k]? = some r → t.out[k]? = some r) ∧
    (s.phase = .run → t.acc = s.acc ∧ t.wgt = s.wgt ∧ t.lenc = s.lenc ∧ t.pos = s.pos ∧
      t.unsup = s.unsup ∧ t.posovf = s.posovf) ∧
    (s.phase = .run → chkPattern s.cfg s.acc ≠ none → t.chkskip = s.chkskip) ∧
    (s.phase = .idle → t.out = s.out ∧ t.phase = .idle) ∧
    (s.err = true → t = s)

/-! ## The step: events, faults, RESET -/

/-- When the word presented next decodes to an instruction, a step takes the word from the port and is that
instruction's `exec`; so it is after `withFetchWord` (R12, R137). -/
def Obligations.StepRunsTheDecodedInstruction : Prop :=
  (∀ (s : State) (w : CmdWord) (rest : List Event) (i : Instr),
    s.booted = true → s.err = false → s.port = .command w :: rest → decode w = .ok i →
    step s = exec i { s with port := rest }) ∧
  (∀ (s : State) (w : CmdWord) (i : Instr), s.booted = true → s.err = false → decode w = .ok i →
    step (s.withFetchWord 8 w.toNat) = exec i s) ∧
  (∀ s : State, s.port = [] → step s = .next s)

/-- R138: the whole entry of IllegalCommand, from a word 0x81 to 0xFF with `ERR = 0`, is `ERR <- 1`. -/
def Obligations.IllegalCommandEntry : Prop :=
  ∀ (s : State) (w : CmdWord) (rest : List Event), s.booted = true → s.err = false →
    s.port = .command w :: rest → 0x81 ≤ w.toNat →
    step s = .next { s with port := rest, err := true }

/-- R131: with `ERR = 1` every command word, legal or not, changes no register and appends nothing. -/
def Obligations.HaltedBlockIgnoresCommands : Prop :=
  (∀ (i : Instr) (s : State), s.err = true → exec i s = .next s) ∧
  (∀ (s : State) (w : CmdWord) (rest : List Event), s.booted = true → s.err = true →
    s.port = .command w :: rest → step s = .next { s with port := rest })

/-- R139: of a block in `ERR = 1` that keeps its power, a step leaves everything but the port as it is, or it is
a RESET and every register has its reset value. -/
def Obligations.OnlyResetLeavesTheFault : Prop :=
  ∀ s t : State, s.booted = true → s.err = true → step s = .next t → t.booted = true →
    t = { s with port := t.port } ∨
    (∃ also, s.port = .reset also :: t.port) ∧
      t = { s with phase := .idle, acc := 1, wgt := 1, lenc := 0, pos := 0, done := false, err := false,
                   unsup := false, chkskip := false, posovf := false, port := t.port }

/-- R150: RESET from any state, alone or together with a command word, which is discarded; it is the only
operation with an effect when `ERR = 1`. -/
def Obligations.ResetFromAnyState : Prop :=
  (∀ (s : State) (also : Option CmdWord) (rest : List Event), s.port = .reset also :: rest →
    step s = .next { s with
      phase := .idle, acc := 1, wgt := 1, lenc := 0, pos := 0, done := false, err := false,
      unsup := false, chkskip := false, posovf := false, booted := true, port := rest }) ∧
  (∀ (s : State) (w : CmdWord) (rest : List Event), s.booted = true → s.err = true →
    s.port = .command w :: rest → step s = .next { s with port := rest })

/-- R34, R151: the reset values, and what the status outputs read right after any RESET. -/
def Obligations.StatusAfterReset : Prop :=
  (∀ (s : State) (also : Option CmdWord) (rest : List Event), s.port = .reset also :: rest →
    ∃ t, step s = .next t ∧ t.out = s.out ∧
      outputs t = { status := 0x00, chkval := 1, uwsel := 0, uw := 85, empty := false }) ∧
  outputs State.reset = { status := 0x00, chkval := 1, uwsel := 0, uw := 85, empty := false } ∧
  State.reset.phase = .idle ∧ State.reset.acc = 1 ∧ State.reset.wgt = 1 ∧ State.reset.lenc = 0 ∧
  State.reset.pos = 0 ∧ State.reset.done = false ∧ State.reset.err = false ∧ State.reset.unsup = false ∧
  State.reset.chkskip = false ∧ State.reset.posovf = false ∧ State.reset.out = []

/-- R153: before the first RESET after power-up no command word has a meaning, and RESET gives every register
its reset value. That a power cycle keeps `OUT` is the model's own reading (log 14). -/
def Obligations.PoweredUpBlockNeedsReset : Prop :=
  (∀ (s : State) (w : CmdWord) (rest : List Event), s.booted = false → s.port = .command w :: rest →
    step s = .refused .commandBeforeReset) ∧
  (∀ (s : State) (also : Option CmdWord) (rest : List Event), s.booted = false → s.port = .reset also :: rest →
    ∃ t, step s = .next t ∧ t.booted = true ∧ t.phase = .idle ∧ t.acc = 1 ∧ t.wgt = 1 ∧ t.lenc = 0 ∧ t.pos = 0 ∧
      t.done = false ∧ t.err = false ∧ t.unsup = false ∧ t.chkskip = false ∧ t.posovf = false) ∧
  (∀ (s : State) (rest : List Event), s.port = .powerCycle :: rest →
    ∃ t, step s = .next t ∧ t.booted = false ∧ t.cfg = s.cfg ∧ t.out = s.out ∧ t.port = rest)

/-- R12, R163: every step terminates; here, once RESET, a step of the model answers a next state, whatever the
port holds. That the spec's fault IllegalCommand (R130, R131) is a next state with `ERR` set and not a `Fault` of
the model is the model's reading (log 8); so are a power cycle as a next state (log 4) and a step with nothing
presented, which holds the state (log 3). -/
def Obligations.StepAlwaysCompletes : Prop :=
  ∀ s : State, s.booted = true → ∃ t, step s = .next t

/-! ## Rules about every step -/

/-- R12, R31: a step only appends to `OUT`, and at most two records. -/
def Obligations.OutOnlyGrows : Prop :=
  ∀ s t : State, step s = .next t → ∃ rs : List SymRecord, rs.length ≤ 2 ∧ t.out = s.out ++ rs

/-- R14, R48: no step changes a parameter or any PROM word. -/
def Obligations.ParametersAndPromNeverChange : Prop :=
  ∀ s t : State, step s = .next t →
    t.cfg = s.cfg ∧ ∀ a, promRead t.cfg a = promRead s.cfg a ∧ promWord t.cfg a = promWord s.cfg a

/-- R28: which event, in which state, sets and which clears each flag; nothing else does. -/
def Obligations.FlagsChangeOnlyAsTabled : Prop :=
  ∀ (s t : State), s.booted = true → step s = .next t → t.booted = true →
    (s.done = false → t.done = true → s.port = .command 0x80 :: t.port ∧ s.err = false) ∧
    (s.done = true → t.done = false →
      (∃ also, s.port = .reset also :: t.port) ∨
      (∃ c, s.port = .command (encode (.char c)) :: t.port ∧ s.phase = .idle ∧ s.err = false)) ∧
    (s.err = false → t.err = true → ∃ w, s.port = .command w :: t.port ∧ 0x81 ≤ w.toNat) ∧
    (s.err = true → t.err = false → ∃ also, s.port = .reset also :: t.port) ∧
    (s.unsup = false → t.unsup = true →
      ∃ c, s.port = .command (encode (.char c)) :: t.port ∧ supported c = false ∧ s.err = false) ∧
    (s.chkskip = false → t.chkskip = true →
      s.port = .command 0x80 :: t.port ∧ s.phase = .run ∧ chkPattern s.cfg s.acc = none ∧ s.err = false) ∧
    (s.posovf = false → t.posovf = true →
      ∃ c, s.port = .command (encode (.char c)) :: t.port ∧ s.err = false ∧
        (s.phase = .run → s.pos = 2 ^ s.cfg.idxW - 1) ∧ (s.phase = .idle → 0 = 2 ^ s.cfg.idxW - 1)) ∧
    (s.unsup = true ∧ t.unsup = false ∨ s.chkskip = true ∧ t.chkskip = false ∨ s.posovf = true ∧ t.posovf = false →
      (∃ also, s.port = .reset also :: t.port) ∨
      (∃ i, s.port = .command (encode i) :: t.port ∧ s.phase = .idle ∧ s.err = false))

/-- R35: the phase machine, row by row: the roles of the records appended, in order, and the next `PHASE`. -/
def Obligations.PhaseMachine : Prop :=
  ∀ (s : State) (rest : List Event), s.booted = true →
    (∀ c, s.err = false → s.port = .command (encode (.char c)) :: rest →
      ∃ t rs, step s = .next t ∧ t.out = s.out ++ rs ∧ t.phase = .run ∧
        (s.phase = .idle → supported c = true → rs.map (·.role) = [.start, .data]) ∧
        (s.phase = .idle → supported c = false → rs.map (·.role) = [.start]) ∧
        (s.phase = .run → supported c = true → rs.map (·.role) = [.data]) ∧
        (s.phase = .run → supported c = false → rs = [])) ∧
    (s.err = false → s.port = .command (encode .endFrame) :: rest →
      ∃ t rs, step s = .next t ∧ t.out = s.out ++ rs ∧ t.phase = .idle ∧
        (s.phase = .idle → rs = []) ∧
        (s.phase = .run → chkPattern s.cfg s.acc ≠ none → rs.map (·.role) = [.checksum, .stop]) ∧
        (s.phase = .run → chkPattern s.cfg s.acc = none → rs.map (·.role) = [.stop])) ∧
    (∀ w, s.err = false → 0x81 ≤ w.toNat → s.port = .command w :: rest →
      ∃ t, step s = .next t ∧ t.out = s.out ∧ t.phase = s.phase) ∧
    (∀ also, s.port = .reset also :: rest → ∃ t, step s = .next t ∧ t.out = s.out ∧ t.phase = .idle)

/-- R32: there is no hidden state: with other records in `OUT`, other events to come and another history of
power-ups, an instruction gives the same registers and appends the same records. -/
def Obligations.NoHiddenState : Prop :=
  ∀ (i : Instr) (s t : State), exec i s = .next t →
    ∃ rs, t.out = s.out ++ rs ∧
      ∀ (o : List SymRecord) (p : List Event) (n : Nat),
        exec i { s with out := o, port := p, powerUps := n } =
          .next { t with out := o ++ rs, port := p, powerUps := n }

/-- R32: nothing survives from a closed frame into the next but `ERR`: from any two states in IDLE with
`ERR = 0` and the same parameters, an instruction appends the same records and leaves the same registers. -/
def Obligations.FrameForgetsThePast : Prop :=
  ∀ (i : Instr) (s s' : State), s.cfg = s'.cfg → s.phase = .idle → s'.phase = .idle →
    s.err = false → s'.err = false →
    ∃ t rs, exec i s = .next t ∧ t.out = s.out ++ rs ∧
      exec i s' = .next { t with out := s'.out ++ rs, booted := s'.booted, powerUps := s'.powerUps, port := s'.port }

/-! ## Invariants -/

/-- The invariants hold at reset. -/
def Obligations.InvariantsHoldAtReset : Prop :=
  BlockInv State.reset ∧ OutOrdered State.reset ∧ IndicesIncrease State.reset ∧ RecordsWellFormed State.reset

/-- R29: the invariants (a) to (f) hold after RESET (from any state, also a powered-up one, where nothing is
assumed) and every step keeps them. -/
def Obligations.StepKeepsRegisterInvariants : Prop :=
  (∀ s : State, RegsInv (resetBlock s)) ∧
  (∀ s t : State, BlockInv s → step s = .next t → BlockInv t)

/-- R35, R120: every step keeps the order Start, Data, Checksum, Stop in `OUT`. -/
def Obligations.StepKeepsSymbolOrder : Prop :=
  ∀ s t : State, BlockInv s → OutOrdered s → step s = .next t → OutOrdered t

/-- R27, R92: while `POSOVF = 0` the Data indices of the frame shown are strictly increasing, after every step. -/
def Obligations.StepKeepsIndicesIncreasing : Prop :=
  ∀ s t : State, BlockInv s → IndicesIncrease s → step s = .next t → IndicesIncrease t

/-- R62, R103: every record in `OUT` stays one of the spec's form: an index of `IDX_W` bits, 0 unless Data, and
13 modules exactly for Stop. -/
def Obligations.StepKeepsRecordsWellFormed : Prop :=
  ∀ s t : State, BlockInv s → RecordsWellFormed s → step s = .next t → RecordsWellFormed t

/-! ## Status outputs -/

/-- R65: every bit of `STATUS`, and the codes of the other outputs. -/
def Obligations.StatusWordBits : Prop :=
  (∀ s : State,
    (outputs s).status.getLsbD 0 = decide (s.phase = .run) ∧
    (outputs s).status.getLsbD 1 = s.done ∧ (outputs s).status.getLsbD 2 = s.err ∧
    (outputs s).status.getLsbD 3 = s.unsup ∧ (outputs s).status.getLsbD 4 = s.chkskip ∧
    (outputs s).status.getLsbD 5 = s.posovf ∧
    (outputs s).status.getLsbD 6 = (s.done && decide (s.lenc = 0)) ∧
    (outputs s).status.getLsbD 7 = false ∧
    (outputs s).empty = (s.done && decide (s.lenc = 0)) ∧ (outputs s).chkval = s.acc) ∧
  (∀ s : State,
    ((outputs s).uwsel = 0 ∧ (outputs s).uw = 85) ∨ ((outputs s).uwsel = 1 ∧ (outputs s).uw = 75) ∨
    ((outputs s).uwsel = 2 ∧ (outputs s).uw = 65) ∨ ((outputs s).uwsel = 3 ∧ (outputs s).uw = 55)) ∧
  (∀ s : State, BlockInv s → s.booted = true → (outputs s).chkval.toNat ≤ 102)

/-- R110, R111: the unit width class and value of every `LENC` and of every input length. -/
def Obligations.UnitWidthSelection : Prop :=
  (∀ s : State,
    (s.lenc.toNat ≤ 12 → (outputs s).uwsel = 0 ∧ (outputs s).uw = 85) ∧
    (13 ≤ s.lenc.toNat ∧ s.lenc.toNat ≤ 16 → (outputs s).uwsel = 1 ∧ (outputs s).uw = 75) ∧
    (17 ≤ s.lenc.toNat ∧ s.lenc.toNat ≤ 19 → (outputs s).uwsel = 2 ∧ (outputs s).uw = 65) ∧
    (s.lenc.toNat = 20 → (outputs s).uwsel = 3 ∧ (outputs s).uw = 55)) ∧
  (∀ n : Nat, uwselOf (min n 20) = if n < 13 then 0 else if n ≤ 16 then 1 else if n ≤ 19 then 2 else 3) ∧
  (∀ n : Nat, (uwOf (uwselOf (min n 20))).toNat =
    if n < 13 then 85 else if n ≤ 16 then 75 else if n ≤ 19 then 65 else 55) ∧
  (∀ m n : Nat, m ≤ n → (uwOf (uwselOf (min n 20))).toNat ≤ (uwOf (uwselOf (min m 20))).toNat)

/-! ## Whole strings -/

/-- R24 to R27, R91, R92: the registers and `OUT` after the characters of an open frame, from any safe state in
IDLE, as functions of the string. -/
def Obligations.RegistersAfterCharacters : Prop :=
  ∀ (s : State) (cs : List CharOrd) (rest : List Event), Safe s → s.phase = .idle → cs ≠ [] →
    s.port = strEvents cs ++ rest →
    ∃ t, Host.Core.run core cs.length s = .next t ∧
      t.phase = .run ∧ (t.acc.toNat : Int) = (104 + weightedSum 1 cs) % 103 ∧
      t.wgt.toNat = (cs.length + 1) % 103 ∧ t.lenc.toNat = min cs.length 20 ∧
      t.pos = cs.length % 2 ^ s.cfg.idxW ∧ t.done = false ∧ t.err = false ∧ t.chkskip = false ∧
      (t.unsup = true ↔ ∃ c ∈ cs, supported c = false) ∧ (t.posovf = true ↔ 2 ^ s.cfg.idxW ≤ cs.length) ∧
      t.out = s.out ++ ⟨.start, 0, patternStart⟩ :: (dataRecords s.cfg 0 cs).map (wrapIndex s.cfg.idxW) ∧
      t.port = rest ∧ t.cfg = s.cfg ∧ t.booted = true

/-- R116: presenting the characters of a string and then END, from any safe state in IDLE, appends exactly
`encode` of the string, and leaves the registers and outputs that (b) to (h) of the rule say. -/
def Obligations.EncodeRunMatchesReference : Prop :=
  ∀ (s : State) (cs : List CharOrd) (rest : List Event), Safe s → s.phase = .idle →
    s.port = encodeEvents cs ++ rest →
    ∃ t, Host.Core.run core (cs.length + 1) s = .next t ∧
      t.out = s.out ++ (encodeString s.cfg cs).seq.map (wrapIndex s.cfg.idxW) ∧
      t.phase = .idle ∧ t.done = true ∧ t.err = false ∧
      (cs ≠ [] → t.acc.toNat = remainder cs) ∧ (cs = [] → t.acc = 1) ∧
      t.lenc.toNat = min cs.length 20 ∧
      (cs ≠ [] → (encodeString s.cfg cs).width = some (outputs t).uw.toNat) ∧
      (t.unsup = true ↔ ∃ c ∈ cs, supported c = false) ∧
      (t.chkskip = true ↔ cs ≠ [] ∧ chkPattern s.cfg (remainderAddr cs) = none) ∧
      (t.posovf = true ↔ 2 ^ s.cfg.idxW ≤ cs.length) ∧
      ((outputs t).empty = true ↔ cs = []) ∧
      t.port = rest ∧ t.cfg = s.cfg ∧ t.booted = true

/-- R119: the same string presented twice, as two frames, appends the same records twice and leaves the same
registers both times. -/
def Obligations.SameStringTwiceGivesSameRecords : Prop :=
  ∀ (s : State) (cs : List CharOrd) (rest : List Event), Safe s → s.phase = .idle →
    s.port = encodeEvents cs ++ (encodeEvents cs ++ rest) →
    ∃ t rs, Host.Core.run core (cs.length + 1) s = .next t ∧ t.out = s.out ++ rs ∧
      Host.Core.run core (2 * (cs.length + 1)) s = .next { t with out := s.out ++ rs ++ rs, port := rest }

/-- R118: how many records the sequence of a string has. -/
def Obligations.SequenceLength : Prop :=
  ∀ (g : Config),
    (encodeString g []).seq = [] ∧
    (∀ cs : List CharOrd, cs ≠ [] →
      (encodeString g cs).seq.length =
        2 + cs.countP supported + (if chkPattern g (remainderAddr cs) = none then 0 else 1)) ∧
    (∀ cs : List CharOrd, cs ≠ [] → (∀ c ∈ cs, supported c = true) →
      ((encodeString g cs).seq.length = cs.length + 3 ↔ remainder cs ≤ 94 ∨ g.chkHi = .emit) ∧
      (95 ≤ remainder cs → g.chkHi = .skip → (encodeString g cs).seq.length = cs.length + 2)) ∧
    (∀ c : CharOrd, supported c = true → (95 ≤ remainder [c] ↔ c = 0x7E) ∧ (c = 0x7E → remainder [c] = 95))

/-- R121: the module count of a complete sequence, the first and the last module, and the count for `A`. -/
def Obligations.ModuleCountOfSequence : Prop :=
  (∀ (g : Config) (cs : List CharOrd), cs ≠ [] →
    moduleCount (encodeString g cs).seq = 11 * ((encodeString g cs).seq.length - 1) + 13 ∧
    (moduleStream (encodeString g cs).seq).length = moduleCount (encodeString g cs).seq ∧
    (moduleStream (encodeString g cs).seq).head? = some true ∧
    (moduleStream (encodeString g cs).seq).getLast? = some true) ∧
  (∀ g : Config, (encodeString g [0x41]).seq.length = 4 ∧ moduleCount (encodeString g [0x41]).seq = 46)

/-- R120: records in the order of R35 split, at their Start records, into frames; the frames joined are the
records; a complete frame is Start, Data records, at most one Checksum just before the Stop, Stop; a frame that
is not complete and is not the last has a Start and no Checksum and no Stop. -/
def Obligations.FramesOfOut : Prop :=
  ∀ (rs : List SymRecord) (k : OutScan), scanFrom .nothing rs = some k → k ≠ .checked →
    (frames rs).flatten = rs ∧
    ∀ f ∈ frames rs,
      (f.head?.map (·.role) = some .start) ∧
      (frameComplete f = true →
        ∃ n, f.map (·.role) = [.start] ++ List.replicate n .data ++ [.stop] ∨
          f.map (·.role) = [.start] ++ List.replicate n .data ++ [.checksum, .stop]) ∧
      (frameComplete f = false → ∃ n, f.map (·.role) = [.start] ++ List.replicate n .data)

/-- R70, R71: the forms of CHAR's operand, the expansions, and the rule's example. Blanks and the character that
ends a line are the model's choice (log 11). -/
def Obligations.ListingExpansions : Prop :=
  (∀ text : List CharOrd,
    expandItem (.str text) = text.map (fun c => .command (encode (.char c))) ∧
    expandItem (.encodeText text) = expandItem (.str text) ++ [.command 0x80]) ∧
  (∀ w, expandItem (.rawWord w) = [.command w]) ∧ expandItem .reset = [.reset none] ∧
  expandItem .endFrame = [.command 0x80] ∧ expandItem (.str []) = [] ∧ expandItem (.encodeText []) = [.command 0x80] ∧
  assemble "CHAR 'A'" = some [.command 0x41] ∧ assemble "CHAR 65" = some [.command 0x41] ∧
  assemble "CHAR 0x41" = some [.command 0x41] ∧ assemble "CHAR ' '" = some [.command 0x20] ∧
  assemble "ENCODE \"A\\x01B\"  ; comment" =
    some [.command 0x41, .command 0x01, .command 0x42, .command 0x80] ∧
  assemble "STR \"\\\\\\\"\"" = some [.command 0x5C, .command 0x22] ∧
  assemble "RESET\n.word 0x85\nEND" = some [.reset none, .command 0x85, .command 0x80]
end

