-- ==== Sys2Proof/Laws/Prom.lean ====
section
/-! SUPPORT. What the PROM reads of the commands give (R52, R83, R85), under every setting of the parameters. -/

namespace Sys2Proof.Machine

@[simp] theorem promRead_startAddr (g : Config) : promRead g startAddr = some patternStart := by
  simp [promRead, promContent, startAddr]

@[simp] theorem promRead_stopAddr (g : Config) : promRead g stopAddr = some patternStop := by
  simp [promRead, promContent, stopAddr]

/-- Every address 0 to 94 holds an 11-module Pattern (R44, R83). -/
theorem promContent_low (g : Config) {a : Nat} (h : a ≤ 94) : ∃ d, promContent g a = some (.eleven d) := by
  unfold promContent
  split
  · exact ⟨_, rfl⟩
  · split
    · exact ⟨_, rfl⟩
    · split
      · exact ⟨_, rfl⟩
      · rw [dif_pos (by omega)]; exact ⟨_, rfl⟩

/-- Addresses 95 to 102 are unprogrammed under SKIP (R46). -/
theorem promContent_high_skip {g : Config} {a : Nat} (h : 95 ≤ a) (h' : a ≤ 102) (hs : g.chkHi = .skip) :
    promContent g a = none := by
  unfold promContent
  rw [if_neg (by omega), if_neg (by omega), dif_neg (by omega), dif_neg (by omega), dif_pos (by omega), hs]

/-- Addresses 95 to 102 hold `PROM_HI` under EMIT (R46). -/
theorem promContent_high_emit {g : Config} {a : Nat} (h : 95 ≤ a) (h' : a ≤ 102) (hs : g.chkHi = .emit) :
    promContent g a = some (.eleven (g.promHi[a - 95]'(by omega))) := by
  unfold promContent
  rw [if_neg (by omega), if_neg (by omega), dif_neg (by omega), dif_neg (by omega), dif_pos (by omega), hs]

/-- The Data pattern of a supported character is there (R83). -/
theorem promRead_data (g : Config) {c : CharOrd} (h : supported c = true) :
    ∃ d, promRead g (dataAddr c) = some (.eleven d) := by
  have hc : 32 ≤ c.toNat ∧ c.toNat ≤ 126 := by simpa [supported] using h
  exact promContent_low g (by simp only [dataAddr, BitVec.toNat_ofNat]; omega)

/-- A legal remainder has no pattern exactly when it is 95 or more and the build skips (R85). -/
theorem chkPattern_eq_none_iff (g : Config) {r : BitVec 7} (h : r.toNat ≤ 102) :
    chkPattern g r = none ↔ 95 ≤ r.toNat ∧ g.chkHi = .skip := by
  unfold chkPattern promRead
  by_cases hr : r.toNat ≤ 94
  · obtain ⟨d, hd⟩ := promContent_low g hr
    simp only [hd, reduceCtorEq, false_iff]; omega
  · cases hs : g.chkHi with
    | skip => simp [promContent_high_skip (by omega) h hs]; omega
    | emit => simp [promContent_high_emit (by omega) h hs]

/-- The pattern of a legal remainder has 11 modules (R85). -/
theorem chkPattern_eleven {g : Config} {r : BitVec 7} {p : Pattern} (h : r.toNat ≤ 102)
    (hp : chkPattern g r = some p) : ∃ d, p = .eleven d := by
  unfold chkPattern promRead at hp
  by_cases hr : r.toNat ≤ 94
  · obtain ⟨d, hd⟩ := promContent_low g hr
    exact ⟨d, by rw [hd] at hp; exact (Option.some.inj hp).symm⟩
  · cases hs : g.chkHi with
    | skip => rw [promContent_high_skip (by omega) h hs] at hp; cases hp
    | emit => rw [promContent_high_emit (by omega) h hs] at hp; exact ⟨_, (Option.some.inj hp).symm⟩

end Sys2Proof.Machine
end

