-- ==== Sys2Proof/Laws/State.lean ====
section
/-! SUPPORT. One lemma per field per update of State, so that no later proof unfolds a record update. -/

namespace Sys2Proof.Machine

@[simp] theorem frameInit_cfg (s : State) : (frameInit s).cfg = s.cfg := rfl
@[simp] theorem frameInit_phase (s : State) : (frameInit s).phase = s.phase := rfl
@[simp] theorem frameInit_acc (s : State) : (frameInit s).acc = 1 := rfl
@[simp] theorem frameInit_wgt (s : State) : (frameInit s).wgt = 1 := rfl
@[simp] theorem frameInit_lenc (s : State) : (frameInit s).lenc = 0 := rfl
@[simp] theorem frameInit_pos (s : State) : (frameInit s).pos = 0 := rfl
@[simp] theorem frameInit_done (s : State) : (frameInit s).done = false := rfl
@[simp] theorem frameInit_err (s : State) : (frameInit s).err = s.err := rfl
@[simp] theorem frameInit_unsup (s : State) : (frameInit s).unsup = false := rfl
@[simp] theorem frameInit_chkskip (s : State) : (frameInit s).chkskip = false := rfl
@[simp] theorem frameInit_posovf (s : State) : (frameInit s).posovf = false := rfl
@[simp] theorem frameInit_out (s : State) : (frameInit s).out = s.out := rfl
@[simp] theorem frameInit_booted (s : State) : (frameInit s).booted = s.booted := rfl
@[simp] theorem frameInit_powerUps (s : State) : (frameInit s).powerUps = s.powerUps := rfl
@[simp] theorem frameInit_port (s : State) : (frameInit s).port = s.port := rfl

@[simp] theorem emit_cfg (role : Role) (idx : Nat) (p : Pattern) (s : State) : (emit role idx p s).cfg = s.cfg := rfl
@[simp] theorem emit_phase (role : Role) (idx : Nat) (p : Pattern) (s : State) : (emit role idx p s).phase = s.phase := rfl
@[simp] theorem emit_acc (role : Role) (idx : Nat) (p : Pattern) (s : State) : (emit role idx p s).acc = s.acc := rfl
@[simp] theorem emit_wgt (role : Role) (idx : Nat) (p : Pattern) (s : State) : (emit role idx p s).wgt = s.wgt := rfl
@[simp] theorem emit_lenc (role : Role) (idx : Nat) (p : Pattern) (s : State) : (emit role idx p s).lenc = s.lenc := rfl
@[simp] theorem emit_pos (role : Role) (idx : Nat) (p : Pattern) (s : State) : (emit role idx p s).pos = s.pos := rfl
@[simp] theorem emit_done (role : Role) (idx : Nat) (p : Pattern) (s : State) : (emit role idx p s).done = s.done := rfl
@[simp] theorem emit_err (role : Role) (idx : Nat) (p : Pattern) (s : State) : (emit role idx p s).err = s.err := rfl
@[simp] theorem emit_unsup (role : Role) (idx : Nat) (p : Pattern) (s : State) : (emit role idx p s).unsup = s.unsup := rfl
@[simp] theorem emit_chkskip (role : Role) (idx : Nat) (p : Pattern) (s : State) : (emit role idx p s).chkskip = s.chkskip := rfl
@[simp] theorem emit_posovf (role : Role) (idx : Nat) (p : Pattern) (s : State) : (emit role idx p s).posovf = s.posovf := rfl
@[simp] theorem emit_out (role : Role) (idx : Nat) (p : Pattern) (s : State) : (emit role idx p s).out = s.out ++ [⟨role, idx, p⟩] := rfl
@[simp] theorem emit_booted (role : Role) (idx : Nat) (p : Pattern) (s : State) : (emit role idx p s).booted = s.booted := rfl
@[simp] theorem emit_powerUps (role : Role) (idx : Nat) (p : Pattern) (s : State) : (emit role idx p s).powerUps = s.powerUps := rfl
@[simp] theorem emit_port (role : Role) (idx : Nat) (p : Pattern) (s : State) : (emit role idx p s).port = s.port := rfl

@[simp] theorem raiseIllegalCommand_cfg (s : State) : (raiseIllegalCommand s).cfg = s.cfg := rfl
@[simp] theorem raiseIllegalCommand_phase (s : State) : (raiseIllegalCommand s).phase = s.phase := rfl
@[simp] theorem raiseIllegalCommand_acc (s : State) : (raiseIllegalCommand s).acc = s.acc := rfl
@[simp] theorem raiseIllegalCommand_wgt (s : State) : (raiseIllegalCommand s).wgt = s.wgt := rfl
@[simp] theorem raiseIllegalCommand_lenc (s : State) : (raiseIllegalCommand s).lenc = s.lenc := rfl
@[simp] theorem raiseIllegalCommand_pos (s : State) : (raiseIllegalCommand s).pos = s.pos := rfl
@[simp] theorem raiseIllegalCommand_done (s : State) : (raiseIllegalCommand s).done = s.done := rfl
@[simp] theorem raiseIllegalCommand_err (s : State) : (raiseIllegalCommand s).err = true := rfl
@[simp] theorem raiseIllegalCommand_unsup (s : State) : (raiseIllegalCommand s).unsup = s.unsup := rfl
@[simp] theorem raiseIllegalCommand_chkskip (s : State) : (raiseIllegalCommand s).chkskip = s.chkskip := rfl
@[simp] theorem raiseIllegalCommand_posovf (s : State) : (raiseIllegalCommand s).posovf = s.posovf := rfl
@[simp] theorem raiseIllegalCommand_out (s : State) : (raiseIllegalCommand s).out = s.out := rfl
@[simp] theorem raiseIllegalCommand_booted (s : State) : (raiseIllegalCommand s).booted = s.booted := rfl
@[simp] theorem raiseIllegalCommand_powerUps (s : State) : (raiseIllegalCommand s).powerUps = s.powerUps := rfl
@[simp] theorem raiseIllegalCommand_port (s : State) : (raiseIllegalCommand s).port = s.port := rfl

@[simp] theorem resetBlock_cfg (s : State) : (resetBlock s).cfg = s.cfg := rfl
@[simp] theorem resetBlock_phase (s : State) : (resetBlock s).phase = .idle := rfl
@[simp] theorem resetBlock_acc (s : State) : (resetBlock s).acc = 1 := rfl
@[simp] theorem resetBlock_wgt (s : State) : (resetBlock s).wgt = 1 := rfl
@[simp] theorem resetBlock_lenc (s : State) : (resetBlock s).lenc = 0 := rfl
@[simp] theorem resetBlock_pos (s : State) : (resetBlock s).pos = 0 := rfl
@[simp] theorem resetBlock_done (s : State) : (resetBlock s).done = false := rfl
@[simp] theorem resetBlock_err (s : State) : (resetBlock s).err = false := rfl
@[simp] theorem resetBlock_unsup (s : State) : (resetBlock s).unsup = false := rfl
@[simp] theorem resetBlock_chkskip (s : State) : (resetBlock s).chkskip = false := rfl
@[simp] theorem resetBlock_posovf (s : State) : (resetBlock s).posovf = false := rfl
@[simp] theorem resetBlock_out (s : State) : (resetBlock s).out = s.out := rfl
@[simp] theorem resetBlock_booted (s : State) : (resetBlock s).booted = true := rfl
@[simp] theorem resetBlock_powerUps (s : State) : (resetBlock s).powerUps = s.powerUps := rfl
@[simp] theorem resetBlock_port (s : State) : (resetBlock s).port = s.port := rfl

@[simp] theorem accumulate_cfg (c : CharOrd) (s : State) : (accumulate c s).cfg = s.cfg := rfl
@[simp] theorem accumulate_phase (c : CharOrd) (s : State) : (accumulate c s).phase = s.phase := rfl
@[simp] theorem accumulate_acc (c : CharOrd) (s : State) : (accumulate c s).acc = accNext c s.acc s.wgt := rfl
@[simp] theorem accumulate_wgt (c : CharOrd) (s : State) : (accumulate c s).wgt = wgtNext s.wgt := rfl
@[simp] theorem accumulate_lenc (c : CharOrd) (s : State) : (accumulate c s).lenc = lencNext s.lenc := rfl
@[simp] theorem accumulate_pos (c : CharOrd) (s : State) : (accumulate c s).pos = posNext s.cfg.idxW s.pos := rfl
@[simp] theorem accumulate_done (c : CharOrd) (s : State) : (accumulate c s).done = s.done := rfl
@[simp] theorem accumulate_err (c : CharOrd) (s : State) : (accumulate c s).err = s.err := rfl
@[simp] theorem accumulate_unsup (c : CharOrd) (s : State) : (accumulate c s).unsup = s.unsup := rfl
@[simp] theorem accumulate_chkskip (c : CharOrd) (s : State) : (accumulate c s).chkskip = s.chkskip := rfl
@[simp] theorem accumulate_posovf (c : CharOrd) (s : State) : (accumulate c s).posovf = (s.posovf || posWraps s.cfg.idxW s.pos) := rfl
@[simp] theorem accumulate_out (c : CharOrd) (s : State) : (accumulate c s).out = s.out := rfl
@[simp] theorem accumulate_booted (c : CharOrd) (s : State) : (accumulate c s).booted = s.booted := rfl
@[simp] theorem accumulate_powerUps (c : CharOrd) (s : State) : (accumulate c s).powerUps = s.powerUps := rfl
@[simp] theorem accumulate_port (c : CharOrd) (s : State) : (accumulate c s).port = s.port := rfl

@[simp] theorem emptyFrame_cfg (s : State) : (emptyFrame s).cfg = s.cfg := rfl
@[simp] theorem emptyFrame_phase (s : State) : (emptyFrame s).phase = s.phase := rfl
@[simp] theorem emptyFrame_acc (s : State) : (emptyFrame s).acc = 1 := rfl
@[simp] theorem emptyFrame_wgt (s : State) : (emptyFrame s).wgt = 1 := rfl
@[simp] theorem emptyFrame_lenc (s : State) : (emptyFrame s).lenc = 0 := rfl
@[simp] theorem emptyFrame_pos (s : State) : (emptyFrame s).pos = 0 := rfl
@[simp] theorem emptyFrame_done (s : State) : (emptyFrame s).done = true := rfl
@[simp] theorem emptyFrame_err (s : State) : (emptyFrame s).err = s.err := rfl
@[simp] theorem emptyFrame_unsup (s : State) : (emptyFrame s).unsup = false := rfl
@[simp] theorem emptyFrame_chkskip (s : State) : (emptyFrame s).chkskip = false := rfl
@[simp] theorem emptyFrame_posovf (s : State) : (emptyFrame s).posovf = false := rfl
@[simp] theorem emptyFrame_out (s : State) : (emptyFrame s).out = s.out := rfl
@[simp] theorem emptyFrame_booted (s : State) : (emptyFrame s).booted = s.booted := rfl
@[simp] theorem emptyFrame_powerUps (s : State) : (emptyFrame s).powerUps = s.powerUps := rfl
@[simp] theorem emptyFrame_port (s : State) : (emptyFrame s).port = s.port := rfl

@[simp] theorem presentWord_cfg (w : CmdWord) (s : State) : (presentWord w s).cfg = s.cfg := rfl
@[simp] theorem presentWord_phase (w : CmdWord) (s : State) : (presentWord w s).phase = s.phase := rfl
@[simp] theorem presentWord_acc (w : CmdWord) (s : State) : (presentWord w s).acc = s.acc := rfl
@[simp] theorem presentWord_wgt (w : CmdWord) (s : State) : (presentWord w s).wgt = s.wgt := rfl
@[simp] theorem presentWord_lenc (w : CmdWord) (s : State) : (presentWord w s).lenc = s.lenc := rfl
@[simp] theorem presentWord_pos (w : CmdWord) (s : State) : (presentWord w s).pos = s.pos := rfl
@[simp] theorem presentWord_done (w : CmdWord) (s : State) : (presentWord w s).done = s.done := rfl
@[simp] theorem presentWord_err (w : CmdWord) (s : State) : (presentWord w s).err = s.err := rfl
@[simp] theorem presentWord_unsup (w : CmdWord) (s : State) : (presentWord w s).unsup = s.unsup := rfl
@[simp] theorem presentWord_chkskip (w : CmdWord) (s : State) : (presentWord w s).chkskip = s.chkskip := rfl
@[simp] theorem presentWord_posovf (w : CmdWord) (s : State) : (presentWord w s).posovf = s.posovf := rfl
@[simp] theorem presentWord_out (w : CmdWord) (s : State) : (presentWord w s).out = s.out := rfl
@[simp] theorem presentWord_booted (w : CmdWord) (s : State) : (presentWord w s).booted = s.booted := rfl
@[simp] theorem presentWord_powerUps (w : CmdWord) (s : State) : (presentWord w s).powerUps = s.powerUps := rfl
@[simp] theorem presentWord_port (w : CmdWord) (s : State) : (presentWord w s).port = .command w :: s.port := rfl

@[simp] theorem powerUp_cfg (s : State) : (powerUp s).cfg = s.cfg := rfl
@[simp] theorem powerUp_out (s : State) : (powerUp s).out = s.out := rfl
@[simp] theorem powerUp_booted (s : State) : (powerUp s).booted = false := rfl
@[simp] theorem powerUp_powerUps (s : State) : (powerUp s).powerUps = s.powerUps + 1 := rfl
@[simp] theorem powerUp_port (s : State) : (powerUp s).port = s.port := rfl

/-- `POS` is a register of `IDX_W` bits also after power-up. -/
theorem powerUp_pos_lt (s : State) : (powerUp s).pos < 2 ^ s.cfg.idxW := Nat.mod_lt _ (Nat.two_pow_pos _)

/-! A PROM read that emits appends at most one record and changes nothing else. -/

@[simp] theorem emitProm_cfg (role : Role) (idx : Nat) (a : PromAddr) (s : State) :
    (emitProm role idx a s).cfg = s.cfg := by
  unfold emitProm; split <;> rfl
@[simp] theorem emitProm_phase (role : Role) (idx : Nat) (a : PromAddr) (s : State) :
    (emitProm role idx a s).phase = s.phase := by
  unfold emitProm; split <;> rfl
@[simp] theorem emitProm_acc (role : Role) (idx : Nat) (a : PromAddr) (s : State) :
    (emitProm role idx a s).acc = s.acc := by
  unfold emitProm; split <;> rfl
@[simp] theorem emitProm_wgt (role : Role) (idx : Nat) (a : PromAddr) (s : State) :
    (emitProm role idx a s).wgt = s.wgt := by
  unfold emitProm; split <;> rfl
@[simp] theorem emitProm_lenc (role : Role) (idx : Nat) (a : PromAddr) (s : State) :
    (emitProm role idx a s).lenc = s.lenc := by
  unfold emitProm; split <;> rfl
@[simp] theorem emitProm_pos (role : Role) (idx : Nat) (a : PromAddr) (s : State) :
    (emitProm role idx a s).pos = s.pos := by
  unfold emitProm; split <;> rfl
@[simp] theorem emitProm_done (role : Role) (idx : Nat) (a : PromAddr) (s : State) :
    (emitProm role idx a s).done = s.done := by
  unfold emitProm; split <;> rfl
@[simp] theorem emitProm_err (role : Role) (idx : Nat) (a : PromAddr) (s : State) :
    (emitProm role idx a s).err = s.err := by
  unfold emitProm; split <;> rfl
@[simp] theorem emitProm_unsup (role : Role) (idx : Nat) (a : PromAddr) (s : State) :
    (emitProm role idx a s).unsup = s.unsup := by
  unfold emitProm; split <;> rfl
@[simp] theorem emitProm_chkskip (role : Role) (idx : Nat) (a : PromAddr) (s : State) :
    (emitProm role idx a s).chkskip = s.chkskip := by
  unfold emitProm; split <;> rfl
@[simp] theorem emitProm_posovf (role : Role) (idx : Nat) (a : PromAddr) (s : State) :
    (emitProm role idx a s).posovf = s.posovf := by
  unfold emitProm; split <;> rfl
@[simp] theorem emitProm_booted (role : Role) (idx : Nat) (a : PromAddr) (s : State) :
    (emitProm role idx a s).booted = s.booted := by
  unfold emitProm; split <;> rfl
@[simp] theorem emitProm_powerUps (role : Role) (idx : Nat) (a : PromAddr) (s : State) :
    (emitProm role idx a s).powerUps = s.powerUps := by
  unfold emitProm; split <;> rfl
@[simp] theorem emitProm_port (role : Role) (idx : Nat) (a : PromAddr) (s : State) :
    (emitProm role idx a s).port = s.port := by
  unfold emitProm; split <;> rfl

theorem emitProm_of_pattern {role : Role} {idx : Nat} {a : PromAddr} {s : State} {p : Pattern}
    (h : promRead s.cfg a = some p) : emitProm role idx a s = emit role idx p s := by
  simp only [emitProm, h]

end Sys2Proof.Machine
end

