-- ==== Sys2Proof/Laws/Commands.lean ====
section
/-! SUPPORT. What each action of CHAR and END does, said once, and all the ways `exec` answers. -/

namespace Sys2Proof.Machine

theorem dataRecord_supported {g : Config} {i : Nat} {c : CharOrd} {p : Pattern} (h : supported c = true)
    (hp : promRead g (dataAddr c) = some p) : dataRecord g i c = [⟨.data, i, p⟩] := by
  simp [dataRecord, h, hp]

@[simp] theorem dataRecord_unsupported {g : Config} {i : Nat} {c : CharOrd} (h : supported c = false) :
    dataRecord g i c = [] := by
  simp [dataRecord, h]

/-- The Checksum record END emits for a content of `ACC`, or nothing (R102). -/
def checksumPart (g : Config) (acc : BitVec 7) : List SymRecord :=
  match chkPattern g acc with
  | some p => [⟨.checksum, 0, p⟩]
  | none => []

theorem openFrame_of_idle {s : State} (h : s.phase = .idle) :
    openFrame s = { frameInit s with phase := .run, out := s.out ++ [⟨.start, 0, patternStart⟩] } := by
  unfold openFrame
  rw [h]
  simp only [emitProm_of_pattern (promRead_startAddr (frameInit s).cfg)]
  rfl

theorem openFrame_of_run {s : State} (h : s.phase = .run) : openFrame s = s := by
  unfold openFrame; rw [h]

/-- Action 3 of CHAR appends the reference's Data record at `POS`, and notes an unsupported character. -/
theorem dataSymbol_eq (c : CharOrd) (s : State) :
    dataSymbol c s =
      { s with out := s.out ++ dataRecord s.cfg s.pos c, unsup := s.unsup || !supported c } := by
  unfold dataSymbol
  cases hc : supported c with
  | true =>
    obtain ⟨d, hd⟩ := promRead_data s.cfg hc
    simp [emitProm_of_pattern hd, dataRecord_supported hc hd, emit]
  | false => simp [hc]

/-- END in RUN: Checksum or `CHKSKIP`, Stop, IDLE, `DONE`. -/
theorem closeFrame_eq (s : State) :
    closeFrame s =
      { s with
        phase := .idle
        done := true
        chkskip := s.chkskip || (chkPattern s.cfg s.acc).isNone
        out := s.out ++ checksumPart s.cfg s.acc ++ [⟨.stop, 0, patternStop⟩] } := by
  unfold closeFrame
  rw [emitProm_of_pattern (promRead_stopAddr _)]
  unfold checksumSymbol checksumPart
  cases h : chkPattern s.cfg s.acc <;> simp [emit]

/-- All the ways an instruction answers (R90, R100). -/
inductive ExecCase (s : State) : Instr → State → Prop where
  | halted (i : Instr) (err : s.err = true) : ExecCase s i s
  | char (c : CharOrd) (err : s.err = false) :
      ExecCase s (.char c) (accumulate c (dataSymbol c (openFrame s)))
  | endIdle (err : s.err = false) (idle : s.phase = .idle) : ExecCase s .endFrame (emptyFrame s)
  | endRun (err : s.err = false) (run : s.phase = .run) : ExecCase s .endFrame (closeFrame s)

theorem exec_cases {i : Instr} {s t : State} (h : exec i s = .next t) : ExecCase s i t := by
  cases he : s.err with
  | true =>
    cases i <;> simp only [exec, execChar, execEnd, he, ↓reduceIte, Host.Outcome.next.injEq] at h <;>
      exact h ▸ .halted _ he
  | false =>
    cases i with
    | char c =>
      simp only [exec, execChar, he, Bool.false_eq_true, ↓reduceIte, Host.Outcome.next.injEq] at h
      exact h ▸ .char c he
    | endFrame =>
      cases hp : s.phase <;>
        simp only [exec, execEnd, he, hp, Bool.false_eq_true, ↓reduceIte, Host.Outcome.next.injEq] at h
      · exact h ▸ .endIdle he hp
      · exact h ▸ .endRun he hp

/-- Neither instruction stops: `exec` answers a next state from every state. -/
theorem exec_next (i : Instr) (s : State) : ∃ t, exec i s = .next t := by
  cases i with
  | char c =>
    cases he : s.err <;> simp [exec, execChar, he]
  | endFrame =>
    cases he : s.err <;> cases hp : s.phase <;> simp [exec, execEnd, he, hp]

/-- An instruction leaves `ERR`, the parameters, the port and the power state as they are. -/
theorem exec_keeps {i : Instr} {s t : State} (h : exec i s = .next t) :
    t.err = s.err ∧ t.cfg = s.cfg ∧ t.booted = s.booted ∧ t.powerUps = s.powerUps ∧ t.port = s.port := by
  cases exec_cases h with
  | halted => exact ⟨rfl, rfl, rfl, rfl, rfl⟩
  | char c =>
    cases hp : s.phase
    · simp [dataSymbol_eq, openFrame_of_idle hp]
    · simp [dataSymbol_eq, openFrame_of_run hp]
  | endIdle => simp
  | endRun => simp [closeFrame_eq]

end Sys2Proof.Machine
end

