-- ==== Sys2Proof/Laws/Decode.lean ====
section
/-! SUPPORT. The rows of the command table do not overlap, and what the decoder's fields are. -/

namespace Sys2Proof

/-- No word matches both rows (R60, "exactly one of"). -/
theorem opcodeRows_disjoint : opcodeRows.Pairwise fun r r' => ∀ w : CmdWord, ¬ (r.holds w = true ∧ r'.holds w = true) := by
  decide

/-- A word is of the CHAR row exactly when bit 7 is clear. -/
theorem rowChar_holds_iff : ∀ w : CmdWord, rowChar.holds w = true ↔ w.toNat < 0x80 := by decide

/-- A word is of the END row exactly when it is 0x80. -/
theorem rowEnd_holds_iff : ∀ w : CmdWord, rowEnd.holds w = true ↔ w.toNat = 0x80 := by decide

/-- The word of CHAR is its ordinal. -/
@[simp] theorem encode_char_toNat (c : CharOrd) : (encode (.char c)).toNat = c.toNat := by
  have := c.isLt
  simp only [encode, BitVec.toNat_setWidth]; omega

@[simp] theorem encode_endFrame_toNat : (encode .endFrame).toNat = 0x80 := rfl

end Sys2Proof
end

