-- ==== Sys2Proof/Laws/PerInstr.lean ====
section
/-! SUPPORT. Facts of every instruction as syntax, one lemma per constructor. -/

namespace Sys2Proof.Laws.LegalWord

/-- The word of an instruction is legal (R66), and its bit 7, the field `K`, tells CHAR from END (R60). -/
def Statement (i : Instr) : Prop :=
  (encode i).toNat < 0x81 ∧ ((encode i).getLsbD 7 = false ↔ ∃ c, i = .char c)

theorem char (c : CharOrd) : Statement (.char c) := by
  refine ⟨by rw [encode_char_toNat]; omega, ?_⟩
  simp [encode]

theorem endFrame : Statement .endFrame :=
  ⟨by decide, by simp [encode]⟩

end Sys2Proof.Laws.LegalWord
end

