-- ==== Sys2Proof/Laws/Records.lean ====
section
/-! SUPPORT. The bits of `PAT`, of a record's word and of `STATUS`, one bit at a time. -/

namespace Sys2Proof.Machine

/-- The bits of a left-aligned 11-module Pattern (R63). -/
theorem patternPat_eleven_getLsbD (d : BitVec 11) (i : Nat) :
    (patternPat (.eleven d)).getLsbD i = if i < 2 then false else d.getLsbD (i - 2) := by
  show (d ++ 0#2 : BitVec (11 + 2)).getLsbD i = _
  rw [BitVec.getLsbD_append]
  split <;> simp

@[simp] theorem patternPat_thirteen (d : BitVec 13) : patternPat (.thirteen d) = d := rfl

/-- The bits of a record's word, from the low end: `PAT`, `N13`, `IDX`, `ROLE` (R62). -/
theorem recordWord_getLsbD (w : Nat) (r : SymRecord) (i : Nat) :
    (recordWord w r).getLsbD i =
      if i < 13 then (patternPat r.pattern).getLsbD i
      else if i < 14 then (patternN13 r.pattern).getLsbD (i - 13)
      else if i < w + 14 then (BitVec.ofNat w r.idx).getLsbD (i - 14)
      else (roleCode r.role).getLsbD (i - (w + 14)) := by
  simp only [recordWord, BitVec.getLsbD_cast, BitVec.getLsbD_append]
  by_cases h1 : i < 13
  · rw [if_pos (by omega), if_pos (by omega), if_pos h1, if_pos h1]
  · by_cases h2 : i < 14
    · rw [if_pos (by omega), if_pos (by omega), if_neg h1, if_neg h1, if_pos h2]
    · by_cases h3 : i < w + 14
      · rw [if_pos (by omega), if_neg (by omega), if_neg h1, if_neg h2, if_pos h3]
      · rw [if_neg (by omega), if_neg h1, if_neg h2, if_neg h3, show w + (1 + 13) = w + 14 by omega]

@[simp] theorem roleOfCode_roleCode (r : Role) : roleOfCode (roleCode r) = r := by cases r <;> rfl

@[simp] theorem roleCode_roleOfCode : ∀ b : BitVec 2, roleCode (roleOfCode b) = b := by decide

end Sys2Proof.Machine
end

