-- ==== Sys2Proof/Laws/Run.lean ====
section
/-! SUPPORT. Peeling one step off a run of several: first of any machine, then of this one. -/

namespace Sys2Proof.Machine

theorem machine_run_of_step (M : Host.Core) {s t : M.State} (h : M.step s = .next t) (k : Nat) :
    M.run (k + 1) s = M.run k t := by
  simp only [Host.Core.run, h]

theorem machine_run_add (M : Host.Core) {s t : M.State} {j : Nat} (h : M.run j s = .next t) (k : Nat) :
    M.run (j + k) s = M.run k t := by
  induction j generalizing s with
  | zero =>
    simp only [Host.Core.run, Host.Outcome.next.injEq] at h
    rw [h, Nat.zero_add]
  | succ j ih =>
    cases hs : M.step s with
    | next s' =>
      rw [machine_run_of_step M hs] at h
      rw [Nat.succ_add, machine_run_of_step M hs, ih h]
    | fault r => simp [Host.Core.run, hs] at h
    | refused r => simp [Host.Core.run, hs] at h

/-- The first step of a run answers a next state: the run goes on from there. -/
theorem core_run_of_step {s t : State} (h : step s = .next t) (k : Nat) :
    Host.Core.run core (k + 1) s = Host.Core.run core k t :=
  machine_run_of_step core h k

/-- A run may be cut in two where its first part answers a next state. -/
theorem core_run_add {s t : State} {j : Nat} (h : Host.Core.run core j s = .next t) (k : Nat) :
    Host.Core.run core (j + k) s = Host.Core.run core k t :=
  machine_run_add core h k

end Sys2Proof.Machine
end

