-- ==== Sys2Proof/Laws/Step.lean ====
section
/-! SUPPORT. All the ways a step answers, said once. -/

namespace Sys2Proof.Machine

/-- The state with the oldest event taken, `rest` left. -/
def afterTake (rest : List Event) (s : State) : State := { s with port := rest }

@[simp] theorem afterTake_cfg (rest : List Event) (s : State) : (afterTake rest s).cfg = s.cfg := rfl
@[simp] theorem afterTake_phase (rest : List Event) (s : State) : (afterTake rest s).phase = s.phase := rfl
@[simp] theorem afterTake_acc (rest : List Event) (s : State) : (afterTake rest s).acc = s.acc := rfl
@[simp] theorem afterTake_wgt (rest : List Event) (s : State) : (afterTake rest s).wgt = s.wgt := rfl
@[simp] theorem afterTake_lenc (rest : List Event) (s : State) : (afterTake rest s).lenc = s.lenc := rfl
@[simp] theorem afterTake_pos (rest : List Event) (s : State) : (afterTake rest s).pos = s.pos := rfl
@[simp] theorem afterTake_done (rest : List Event) (s : State) : (afterTake rest s).done = s.done := rfl
@[simp] theorem afterTake_err (rest : List Event) (s : State) : (afterTake rest s).err = s.err := rfl
@[simp] theorem afterTake_unsup (rest : List Event) (s : State) : (afterTake rest s).unsup = s.unsup := rfl
@[simp] theorem afterTake_chkskip (rest : List Event) (s : State) : (afterTake rest s).chkskip = s.chkskip := rfl
@[simp] theorem afterTake_posovf (rest : List Event) (s : State) : (afterTake rest s).posovf = s.posovf := rfl
@[simp] theorem afterTake_out (rest : List Event) (s : State) : (afterTake rest s).out = s.out := rfl
@[simp] theorem afterTake_booted (rest : List Event) (s : State) : (afterTake rest s).booted = s.booted := rfl
@[simp] theorem afterTake_powerUps (rest : List Event) (s : State) : (afterTake rest s).powerUps = s.powerUps := rfl
@[simp] theorem afterTake_port (rest : List Event) (s : State) : (afterTake rest s).port = rest := rfl

/-- All the ways a step answers a next state (R137, R150, R153). -/
inductive StepCase (s : State) : State → Prop where
  | hold (port : s.port = []) : StepCase s s
  | reset (also : Option CmdWord) (rest : List Event) (port : s.port = .reset also :: rest) :
      StepCase s (resetBlock (afterTake rest s))
  | power (rest : List Event) (port : s.port = .powerCycle :: rest) : StepCase s (powerUp (afterTake rest s))
  | ignored (w : CmdWord) (rest : List Event) (port : s.port = .command w :: rest) (booted : s.booted = true)
      (err : s.err = true) : StepCase s (afterTake rest s)
  | illegal (w : CmdWord) (rest : List Event) (port : s.port = .command w :: rest) (booted : s.booted = true)
      (err : s.err = false) (word : decode w = .error .illegalCommand) :
      StepCase s (raiseIllegalCommand (afterTake rest s))
  | ran (w : CmdWord) (rest : List Event) (i : Instr) (t : State) (port : s.port = .command w :: rest)
      (booted : s.booted = true) (err : s.err = false) (word : decode w = .ok i)
      (ran : ExecCase (afterTake rest s) i t) : StepCase s t

theorem step_cases {s t : State} (h : step s = .next t) : StepCase s t := by
  unfold step takeEvent at h
  split at h
  · cases h; exact .hold ‹_›
  · rename_i e rest hp
    cases e with
    | reset also => cases h; exact .reset also rest hp
    | powerCycle => cases h; exact .power rest hp
    | command w =>
      simp only [runEvent, runCommand] at h
      split at h
      · rename_i hb
        split at h
        · rename_i he; cases h; exact .ignored w rest hp hb he
        · rename_i he
          replace he : s.err = false := by simpa using he
          split at h
          · rename_i i hw; exact .ran w rest i t hp hb he hw (exec_cases h)
          · rename_i hw; cases h; exact .illegal w rest hp hb he hw
      · cases h

end Sys2Proof.Machine
end

