-- ==== Sys2Proof/Tests/Slice0.lean ====
section
/-! SUPPORT. Small tests of the model and a witness for the hypotheses of each statement. Expected values are
those of 95_test_vectors.md, of the rules' own examples and of the "widths" columns of R45 and R46, except the
witnesses, whose values only meet hypotheses. -/

namespace Sys2Proof.Tests

open Sys2Proof Sys2Proof.Machine

/-- A state in the notation of 95_test_vectors.md, at the default parameters, with `OUT` empty. -/
def vec (phase : Phase) (acc wgt lenc pos : Nat) (done err unsup chkskip posovf : Bool) : State :=
  { State.reset with
    phase := phase, acc := BitVec.ofNat 7 acc, wgt := BitVec.ofNat 7 wgt, lenc := BitVec.ofNat 5 lenc, pos := pos,
    done := done, err := err, unsup := unsup, chkskip := chkskip, posovf := posovf }

/-- `PHASE ACC WGT LENC POS` in the order of 95_test_vectors.md, and then `STATUS`. -/
def regs (s : State) : List Nat :=
  [if s.phase = .run then 1 else 0, s.acc.toNat, s.wgt.toNat, s.lenc.toNat, s.pos, (statusWord s).toNat]

/-- The registers after an outcome, and the record words it leaves in `OUT`. -/
def seen (o : Host.Outcome State Fault Refusal) : Option (List Nat × List Nat) :=
  match o with
  | .next t => some (regs t, (symWords t).map BitVec.toNat)
  | .fault _ => none
  | .refused _ => none

/-- Default parameters but `P_CHK_HI = EMIT`. -/
def emitConfig : Config := { defaultConfig with chkHi := .emit }

/-- An open frame in which `A` was taken. -/
def openA : State := vec .run 34 2 1 1 false false false false false

/-- The same with some events presented. -/
def presented (evs : List Event) (s : State) : State := { s with port := evs }

/-! ## Decoding: words written out from R60 -/

theorem test_decode_char_A : decode 0b01000001 = .ok (.char 0x41) := by decide
theorem test_decode_char_lowest : decode 0b00000000 = .ok (.char 0) := by decide
theorem test_decode_char_highest : decode 0b01111111 = .ok (.char 0x7F) := by decide
theorem test_decode_end : decode 0b10000000 = .ok .endFrame := by decide
theorem test_decode_illegal_lowest : decode 0x81 = .error .illegalCommand := by decide
theorem test_decode_illegal_highest : decode 0xFF = .error .illegalCommand := by decide
theorem test_decode_table_words : decodeTableWord 8 0x41 = some (.char 0x41) ∧ decodeTableWord 8 0x80 = some .endFrame ∧
    decodeTableWord 8 0xC1 = none := by decide

/-! ## WellFormed refuses an ill-formed term of each check -/

theorem test_wf_refuses_zero_idxw : ({ defaultConfig with idxW := 0 } : Config).wf = false := by decide
theorem test_wf_refuses_wide_index : (⟨.data, 4, patternA⟩ : SymRecord).wf 2 = false := by decide
theorem test_wf_refuses_indexed_start : (⟨.start, 1, patternStart⟩ : SymRecord).wf 16 = false := by decide
theorem test_wf_refuses_long_data : (⟨.data, 0, patternStop⟩ : SymRecord).wf 16 = false := by decide
theorem test_wf_refuses_short_stop : (⟨.stop, 0, patternA⟩ : SymRecord).wf 16 = false := by decide
theorem test_wf_accepts_defaults : defaultConfig.wf = true ∧ (⟨.stop, 0, patternStop⟩ : SymRecord).wf 16 = true ∧
    (Instr.char 0x7F).wf = true ∧ Instr.endFrame.wf = true := by decide

/-! ## The transcribed tables against the "widths" columns of R45 and R46 -/

/-- A list of run lengths as the six-digit number the spec prints. -/
def digits (ns : List Nat) : Nat := ns.foldl (fun a n => 10 * a + n) 0

theorem test_prom_data_widths : promDataDefault.toList.map (fun d => digits (patternWidths (.eleven d))) =
[212222, 222122, 222221, 121223, 121322, 131222, 122213, 122312, 132212, 221213, 221312, 231212] ++
   [112232, 122132, 122231, 113222, 123122, 123221, 223211, 221132, 221231, 213212, 223112, 312131] ++
   [311222, 321122, 321221, 312212, 322112, 322211, 212123, 212321, 232121, 131321, 112313, 132113] ++
   [132311, 211313, 231113, 231311, 112133, 112331, 132131, 113123, 113321, 133121, 313121, 211331] ++
   [231131, 213113, 213311, 213131, 311123, 311321, 331121, 312113, 312311, 332111, 314111, 221411] ++
   [431111, 111224, 111422, 121124, 121421, 141122, 141221, 112214, 112412, 122114, 122411, 142112] ++
   [142211, 241211, 221114, 413111, 241112, 134111, 111242, 121142, 121241, 114212, 124112, 124211] ++
   [411212, 421112, 421211, 212141, 214121, 412121, 111143, 111341, 131141] := by decide

theorem test_prom_hi_widths : promHiDefault.toList.map (fun d => digits (patternWidths (.eleven d))) =
[114113, 114311, 411113, 411311, 113141, 114131, 311141, 411131] := by decide

/-! ## CHAR and END: one step each (vectors V4 n, S5, V5 c, V5 d) -/

/-- V4 n: the largest product, an unsupported character, `WGT` 102 wrapping to 0. -/
theorem test_char_largest_product :
    seen (exec (.char 0x7F) (vec .run 0 102 20 204 false false false false false)) =
      some ([1, 8, 0, 20, 205, 0x09], []) := by decide

/-- V4 j: CHAR after a closed frame opens a new one. -/
theorem test_char_after_closed_frame :
    seen (exec (.char 0x42) (vec .idle 95 2 1 1 true false false true false)) =
      some ([1, 35, 2, 1, 1, 0x01], [0x00001A40, 0x40001160]) := by decide

/-- V5 b: the Checksum record of `A`, then Stop. -/
theorem test_end_with_checksum :
    seen (exec .endFrame openA) = some ([0, 34, 2, 1, 1, 0x02], [0x80001160, 0xC00038EB]) := by decide

/-- V5 c and V5 d: remainder 95 under SKIP and under EMIT. -/
theorem test_end_remainder_95 :
    seen (exec .endFrame (vec .run 95 2 1 1 false false false false false)) =
      some ([0, 95, 2, 1, 1, 0x12], [0xC00038EB]) ∧
    seen (exec .endFrame { vec .run 95 2 1 1 false false false false false with cfg := emitConfig }) =
      some ([0, 95, 2, 1, 1, 0x02], [0x800017A0, 0xC00038EB]) := by decide

/-! ## Steps: the fault and RESET (V16) and the first instruction after reset -/

/-- V16 b: an illegal word in RUN. -/
theorem test_illegal_word_in_run :
    seen (step (presented [.command 0xFF] openA)) = some ([1, 34, 2, 1, 1, 0x05], []) := by decide

/-- V16 h: RESET together with the word 0x41. -/
theorem test_reset_with_word :
    seen (step (presented [.reset (some 0x41)] openA)) = some ([0, 1, 1, 0, 0, 0x00], []) := by decide

/-- S5, first row. -/
theorem test_first_instruction_after_reset :
    seen (step (State.reset.withFetchWord 8 0x41)) = some ([1, 34, 2, 1, 1, 0x01], [0x00001A40, 0x40001460]) := by
  decide

/-! ## Listings (R70, R71) -/

theorem test_listing_program_P5 :
    assemble "RESET\nCHAR 'A'  ; 0x41\n.word 0x85\nENCODE \"B\"" =
      some [.reset none, .command 0x41, .command 0x85, .command 0x42, .command 0x80] := by decide

theorem test_listing_refuses : assemble "CHAR 128" = none ∧ assemble "NOP" = none ∧
    assemble "STR \"\\x80\"" = none := by decide

/-! ## Witnesses: concrete data that meet the hypotheses of each statement, clause by clause -/

theorem witness_DecodingFollowsTheCommandFormat :
    (0x7F : CmdWord).getLsbD 7 = false ∧ (0x80 : CmdWord).toNat = 0x80 ∧ 0x81 ≤ (0x81 : CmdWord).toNat ∧
    0x81 ≤ (0xFF : CmdWord).toNat := by decide

theorem witness_InstructionWordRoundTrip :
    (Instr.char 0x7F).wf = true ∧ decode 0x00 = .ok (.char 0) ∧ decode 0x80 = .ok .endFrame := by decide

theorem witness_CommandStreamRoundTrip :
    (∀ i ∈ [Instr.char 0x7F, .endFrame], i.wf = true) ∧ decodeWords [0x7F, 0x80] = .ok [.char 0x7F, .endFrame] := by
  decide

theorem witness_SymbolRecordRoundTrip :
    (3 < 2 ^ 2) ∧ recordOfWord 2 0x1D620 = some ⟨.data, 3, .eleven 0b10110001000⟩ ∧
    recordOfWord 16 0xC00038EB = some ⟨.stop, 0, patternStop⟩ := by decide

theorem witness_PatternOnWires : 10 < patternLength patternA ∧ 12 < patternLength patternStop := by decide

theorem witness_PromAddressMap :
    (32 : PromAddr).toNat < 33 ∧ (35 ≤ (35 : PromAddr).toNat ∧ (94 : PromAddr).toNat ≤ 94) ∧
    (95 ≤ (95 : PromAddr).toNat ∧ (102 : PromAddr).toNat ≤ 102) ∧ defaultConfig.chkHi = .skip ∧
    emitConfig.chkHi = .emit ∧ 107 ≤ (107 : PromAddr).toNat ∧ 107 ≤ (127 : PromAddr).toNat := by decide

theorem witness_PromWordLayout :
    promRead defaultConfig 95 = none ∧ promRead emitConfig 95 = some (.eleven 0b10111101000) ∧
    promRead defaultConfig 106 = some patternStop := by decide

theorem witness_ChecksumPatternResolution :
    (94 : BitVec 7).toNat ≤ 94 ∧ (95 ≤ (95 : BitVec 7).toNat ∧ (102 : BitVec 7).toNat ≤ 102) ∧
    defaultConfig.chkHi = .skip ∧ emitConfig.chkHi = .emit := by decide

theorem witness_ChecksumValueOfOrdinal : 32 ≤ (0x20 : CharOrd).toNat ∧ (0x1F : CharOrd).toNat < 32 := by decide

theorem witness_DataAddressOfOrdinal : supported 0x20 = true ∧ supported 0x7E = true := by decide

theorem witness_CharStepEffect :
    State.reset.err = false ∧ State.reset.phase = .idle ∧ openA.err = false ∧ openA.phase = .run ∧
    supported 0x7E = true ∧ supported 0x7F = false ∧ (vec .run 34 2 1 1 false true false false false).err = true := by
  decide

theorem witness_CharFrame :
    (∃ t, exec (.char 0x42) openA = .next t) ∧ openA.phase = .run ∧ supported 0x42 = true ∧
    openA.pos ≠ 2 ^ openA.cfg.idxW - 1 ∧ (∃ t, exec (.char 0x01) openA = .next t) ∧ supported 0x01 = false ∧
    (∃ t, exec (.char 0x42) (vec .run 34 2 1 1 false true false false false) = .next t) :=
  ⟨⟨_, rfl⟩, by decide, by decide, by decide, ⟨_, rfl⟩, by decide, ⟨_, rfl⟩⟩

theorem witness_EndStepEffect :
    openA.err = false ∧ openA.phase = .run ∧ openA.acc = 34 ∧ chkPattern openA.cfg openA.acc = some patternB ∧
    chkPattern defaultConfig 95 = none ∧ State.reset.phase = .idle ∧
    (vec .run 34 2 1 1 false true false false false).err = true := by decide

theorem witness_EndOfEmptyString :
    (vec .idle 34 2 1 1 true false true false false).err = false ∧
    (vec .idle 34 2 1 1 true false true false false).phase = .idle := by decide

theorem witness_EndFrameUnchanged :
    (∃ t, exec .endFrame openA = .next t) ∧ openA.phase = .run ∧ chkPattern openA.cfg openA.acc ≠ none ∧
    (∃ t, exec .endFrame State.reset = .next t) ∧ State.reset.phase = .idle ∧
    (∃ t, exec .endFrame (vec .run 34 2 1 1 false true false false false) = .next t) :=
  ⟨⟨_, rfl⟩, by decide, by decide, ⟨_, rfl⟩, by decide, ⟨_, rfl⟩⟩

theorem witness_StepRunsTheDecodedInstruction :
    (presented [.command 0x42] openA).booted = true ∧ (presented [.command 0x42] openA).err = false ∧
    (presented [.command 0x42] openA).port = .command 0x42 :: [] ∧ decode 0x42 = .ok (.char 0x42) ∧
    openA.port = [] := by decide

theorem witness_IllegalCommandEntry :
    (presented [.command 0x81] openA).booted = true ∧ (presented [.command 0x81] openA).err = false ∧
    (presented [.command 0x81] openA).port = .command 0x81 :: [] ∧ 0x81 ≤ (0x81 : CmdWord).toNat ∧
    0x81 ≤ (0xFF : CmdWord).toNat := by decide

/-- The block halted in an open frame (V4 o). -/
def haltedA : State := vec .run 34 2 1 1 false true false false false

theorem witness_HaltedBlockIgnoresCommands :
    haltedA.err = true ∧ haltedA.booted = true ∧
    (presented [.command 0x85] haltedA).port = .command 0x85 :: [] := by decide

theorem witness_OnlyResetLeavesTheFault :
    haltedA.booted = true ∧ haltedA.err = true ∧
    (∃ t, step (presented [.command 0x80] haltedA) = .next t ∧ t.booted = true) ∧
    (∃ t, step (presented [.reset none] haltedA) = .next t ∧ t.booted = true) :=
  ⟨by decide, by decide, ⟨_, rfl, rfl⟩, ⟨_, rfl, rfl⟩⟩

theorem witness_ResetFromAnyState :
    (presented [.reset (some 0x41)] haltedA).port = .reset (some 0x41) :: [] ∧
    (presented [.command 0x41] haltedA).booted = true ∧ (presented [.command 0x41] haltedA).err = true ∧
    (presented [.command 0x41] haltedA).port = .command 0x41 :: [] := by decide

theorem witness_StatusAfterReset : (presented [.reset none] openA).port = .reset none :: [] := by decide

/-- A block that was powered up and not RESET. -/
def unbooted : State := { openA with booted := false }

theorem witness_PoweredUpBlockNeedsReset :
    unbooted.booted = false ∧ (presented [.command 0x41] unbooted).port = .command 0x41 :: [] ∧
    (presented [.reset none] unbooted).port = .reset none :: [] ∧
    (presented [.powerCycle] openA).port = .powerCycle :: [] := by decide

theorem witness_StepAlwaysCompletes : State.reset.booted = true ∧ haltedA.booted = true := by decide

theorem witness_OutOnlyGrows : ∃ t, step (presented [.command 0x80] openA) = .next t := ⟨_, rfl⟩

theorem witness_ParametersAndPromNeverChange : ∃ t, step (presented [.reset none] openA) = .next t := ⟨_, rfl⟩

/-- One state and event for each clause of `FlagsChangeOnlyAsTabled`, with the flag that changes. -/
theorem witness_FlagsChangeOnlyAsTabled :
    (∃ t, step (presented [.command 0x80] openA) = .next t ∧ t.done = true ∧ t.booted = true) ∧
    (∃ t, step (presented [.command 0x41] (vec .idle 34 2 1 1 true false false false false)) = .next t ∧
      t.done = false ∧ t.booted = true) ∧
    (∃ t, step (presented [.command 0x81] openA) = .next t ∧ t.err = true ∧ t.booted = true) ∧
    (∃ t, step (presented [.reset none] haltedA) = .next t ∧ t.err = false ∧ t.booted = true) ∧
    (∃ t, step (presented [.command 0x7F] openA) = .next t ∧ t.unsup = true ∧ t.booted = true) ∧
    (∃ t, step (presented [.command 0x80] (vec .run 95 2 1 1 false false false false false)) = .next t ∧
      t.chkskip = true ∧ t.booted = true) ∧
    (∃ t, step (presented [.command 0x41] (vec .run 7 28 20 65535 false false false false false)) = .next t ∧
      t.posovf = true ∧ t.booted = true) ∧
    (∃ t, step (presented [.command 0x80] (vec .idle 95 2 1 1 true false true true true)) = .next t ∧
      t.unsup = false ∧ t.chkskip = false ∧ t.posovf = false ∧ t.booted = true) :=
  ⟨⟨_, rfl, rfl, rfl⟩, ⟨_, rfl, rfl, rfl⟩, ⟨_, rfl, rfl, rfl⟩, ⟨_, rfl, rfl, rfl⟩, ⟨_, rfl, rfl, rfl⟩, ⟨_, rfl, rfl, rfl⟩,
    ⟨_, rfl, rfl, rfl⟩, ⟨_, rfl, rfl, rfl, rfl, rfl⟩⟩

/-- A state and event for each row of the phase machine. -/
theorem witness_PhaseMachine :
    (presented [commandOf (.char 0x41)] State.reset).booted = true ∧ State.reset.err = false ∧
    (presented [commandOf (.char 0x41)] State.reset).port = .command (encode (.char 0x41)) :: [] ∧
    (presented [commandOf .endFrame] openA).port = .command (encode .endFrame) :: [] ∧
    (presented [.command 0x81] openA).port = .command 0x81 :: [] ∧ 0x81 ≤ (0x81 : CmdWord).toNat ∧
    (presented [.reset none] openA).port = .reset none :: [] ∧ State.reset.phase = .idle ∧ openA.phase = .run ∧
    openA.err = false ∧ supported 0x41 = true ∧ supported 0x01 = false ∧
    chkPattern openA.cfg openA.acc ≠ none ∧ chkPattern defaultConfig 102 = none := by decide

theorem witness_NoHiddenState : ∃ t, exec (.char 0x42) openA = .next t := ⟨_, rfl⟩

theorem witness_FrameForgetsThePast :
    (vec .idle 34 2 1 1 true false true false false).cfg = State.reset.cfg ∧
    (vec .idle 34 2 1 1 true false true false false).phase = .idle ∧
    (vec .idle 34 2 1 1 true false true false false).err = false ∧ State.reset.phase = .idle ∧
    State.reset.err = false := by decide

/-- `openA` with its two records in `OUT`, and END presented. -/
def openAOut : State :=
  { presented [.command 0x80] openA with out := [⟨.start, 0, patternStart⟩, ⟨.data, 0, patternA⟩] }

theorem openAOut_inv : BlockInv openAOut := fun _ => by constructor <;> decide

theorem openAOut_steps : ∃ t, step openAOut = .next t := ⟨_, rfl⟩

theorem witness_StepKeepsRegisterInvariants : BlockInv openAOut ∧ ∃ t, step openAOut = .next t :=
  ⟨openAOut_inv, openAOut_steps⟩

theorem witness_StepKeepsSymbolOrder : BlockInv openAOut ∧ OutOrdered openAOut ∧ ∃ t, step openAOut = .next t :=
  ⟨openAOut_inv, ⟨⟨.opened, by decide, by decide⟩, fun _ _ => by decide, fun _ h => absurd h (by decide)⟩,
    openAOut_steps⟩

theorem witness_StepKeepsIndicesIncreasing :
    BlockInv openAOut ∧ IndicesIncrease openAOut ∧ (frameShown openAOut ∧ openAOut.posovf = false) ∧
    ∃ t, step openAOut = .next t :=
  ⟨openAOut_inv, fun _ _ _ => by decide, ⟨.inl (by decide), by decide⟩, openAOut_steps⟩

theorem witness_StepKeepsRecordsWellFormed :
    BlockInv openAOut ∧ RecordsWellFormed openAOut ∧ ∃ t, step openAOut = .next t :=
  ⟨openAOut_inv, by unfold RecordsWellFormed; decide, openAOut_steps⟩

theorem witness_StatusWordBits : BlockInv openAOut ∧ openAOut.booted = true := ⟨openAOut_inv, by decide⟩

theorem witness_UnitWidthSelection :
    (vec .run 0 0 12 12 false false false false false).lenc.toNat ≤ 12 ∧
    13 ≤ (vec .run 0 0 13 13 false false false false false).lenc.toNat ∧
    (vec .run 0 0 16 16 false false false false false).lenc.toNat ≤ 16 ∧
    17 ≤ (vec .run 0 0 17 17 false false false false false).lenc.toNat ∧
    (vec .run 0 0 19 19 false false false false false).lenc.toNat ≤ 19 ∧
    (vec .run 0 0 20 20 false false false false false).lenc.toNat = 20 ∧ 12 ≤ 13 := by decide

theorem witness_RegistersAfterCharacters :
    Safe State.reset ∧ State.reset.phase = .idle ∧ ([0x41] : List CharOrd) ≠ [] ∧
    (presented (strEvents [0x41]) State.reset).port = strEvents [0x41] ++ [] := by
  unfold Safe; decide

theorem witness_EncodeRunMatchesReference :
    Safe State.reset ∧ State.reset.phase = .idle ∧
    (presented (encodeEvents [0x41]) State.reset).port = encodeEvents [0x41] ++ [] ∧
    (presented (encodeEvents []) State.reset).port = encodeEvents [] ++ [] := by
  unfold Safe; decide

theorem witness_SameStringTwiceGivesSameRecords :
    Safe State.reset ∧ State.reset.phase = .idle ∧
    (presented (encodeEvents [0x41] ++ encodeEvents [0x41]) State.reset).port =
      encodeEvents [0x41] ++ (encodeEvents [0x41] ++ []) := by
  unfold Safe; decide

theorem witness_SequenceLength :
    ([0x7E] : List CharOrd) ≠ [] ∧ (∀ c ∈ ([0x7E] : List CharOrd), supported c = true) ∧ 95 ≤ remainder [0x7E] ∧
    defaultConfig.chkHi = .skip ∧ remainder [0x41] ≤ 94 := by decide

theorem witness_ModuleCountOfSequence : ([0x41] : List CharOrd) ≠ [] := by decide

theorem witness_FramesOfOut :
    scanFrom .nothing openAOut.out = some .opened ∧ OutScan.opened ≠ .checked ∧
    scanFrom .nothing (openAOut.out ++ openAOut.out ++ [⟨.checksum, 0, patternB⟩, ⟨.stop, 0, patternStop⟩]) =
      some .closed ∧
    (frames (openAOut.out ++ openAOut.out ++ [⟨.checksum, 0, patternB⟩, ⟨.stop, 0, patternStop⟩])).map frameComplete =
      [false, true] := by decide

end Sys2Proof.Tests
end

section
/-! SUPPORT. One rule per way a step runs: nothing presented, an event, a command word (R137); the converse of
`exec_cases`; what a step appends to `OUT`. -/

namespace Sys2Proof.Machine

variable {s t : State}

/-! ## Rules of the step -/

theorem step_of_port_nil (hport : s.port = []) : step s = .next s := by
  simp only [step, takeEvent, hport]

theorem step_of_port_cons {e : Event} {rest : List Event} (hport : s.port = e :: rest) :
    step s = runEvent e (afterTake rest s) := by
  simp only [step, takeEvent, hport, afterTake]

theorem runCommand_of_decode_ok {w : CmdWord} {i : Instr} (hbooted : s.booted = true) (herr : s.err = false)
    (hw : decode w = .ok i) : runCommand w s = exec i s := by
  simp [runCommand, hbooted, herr, hw]

theorem runCommand_of_decode_error {w : CmdWord} (hbooted : s.booted = true) (herr : s.err = false)
    (hw : decode w = .error .illegalCommand) : runCommand w s = .next (raiseIllegalCommand s) := by
  simp [runCommand, hbooted, herr, hw]

theorem runCommand_of_err {w : CmdWord} (hbooted : s.booted = true) (herr : s.err = true) :
    runCommand w s = .next s := by
  simp [runCommand, hbooted, herr]

/-- A RESET block answers every command word, legal or not, with a next state. -/
theorem runCommand_next (w : CmdWord) (hbooted : s.booted = true) : ∃ t, runCommand w s = .next t := by
  cases herr : s.err with
  | true => exact ⟨_, runCommand_of_err hbooted herr⟩
  | false =>
    cases hw : decode w with
    | ok i =>
      rw [runCommand_of_decode_ok hbooted herr hw]
      exact exec_next i s
    | error e => exact ⟨_, runCommand_of_decode_error hbooted herr hw⟩

/-- Of a block that is RESET, every event is answered with a next state. -/
theorem runEvent_next (e : Event) (hbooted : s.booted = true) : ∃ t, runEvent e s = .next t := by
  cases e with
  | command w => exact runCommand_next w hbooted
  | reset also => exact ⟨resetBlock s, rfl⟩
  | powerCycle => exact ⟨powerUp s, rfl⟩

/-- Checks (2) to (4) of R137 passed: a step is the decoded instruction on the state with its word taken. -/
theorem step_of_decode_ok {w : CmdWord} {rest : List Event} {i : Instr} (hbooted : s.booted = true)
    (herr : s.err = false) (hport : s.port = .command w :: rest) (hw : decode w = .ok i) :
    step s = exec i (afterTake rest s) := by
  rw [step_of_port_cons hport]
  exact runCommand_of_decode_ok (s := afterTake rest s) hbooted herr hw

/-- At the width of a command word, `withFetchWord` presents just that word. -/
theorem withFetchWord_toNat (s : State) (w : CmdWord) : s.withFetchWord 8 w.toNat = presentWord w s := by
  simp [State.withFetchWord, Nat.mod_eq_of_lt w.isLt]

/-- Taking the word just presented gives the state before it was presented. -/
theorem afterTake_presentWord (s : State) (w : CmdWord) : afterTake s.port (presentWord w s) = s := rfl

/-! ## What `exec` answers, from its cases -/

/-- The converse of `exec_cases`. -/
theorem ExecCase.exec_eq {i : Instr} (h : ExecCase s i t) : exec i s = .next t := by
  cases h with
  | halted i err => cases i <;> simp [exec, execChar, execEnd, err]
  | char c err => simp [exec, execChar, err]
  | endIdle err idle => simp [exec, execEnd, err, idle]
  | endRun err run => simp [exec, execEnd, err, run]

theorem ExecCase.cfg_eq {i : Instr} (h : ExecCase s i t) : t.cfg = s.cfg := by
  obtain ⟨-, hcfg, -⟩ := exec_keeps h.exec_eq
  exact hcfg

/-- No step writes the parameters (R14). -/
theorem step_cfg (h : step s = .next t) : t.cfg = s.cfg := by
  cases step_cases h with
  | ran w rest i _ _ _ _ _ hran => exact hran.cfg_eq
  | _ => simp

/-! ## What a step appends to `OUT` -/

theorem dataRecord_length_le (g : Config) (i : Nat) (c : CharOrd) : (dataRecord g i c).length ≤ 1 := by
  unfold dataRecord
  split
  · split <;> simp
  · simp

theorem checksumPart_length_le (g : Config) (acc : BitVec 7) : (checksumPart g acc).length ≤ 1 := by
  unfold checksumPart
  split <;> simp

/-- Opening a frame appends the Start record or nothing. -/
theorem openFrame_out (s : State) : ∃ rs : List SymRecord, rs.length ≤ 1 ∧ (openFrame s).out = s.out ++ rs := by
  cases hp : s.phase with
  | idle => exact ⟨[⟨.start, 0, patternStart⟩], by simp, by rw [openFrame_of_idle hp]⟩
  | run => exact ⟨[], by simp, by simp [openFrame_of_run hp]⟩

/-- An instruction appends at most two records: Start and Data, or Checksum and Stop (R35). -/
theorem ExecCase.out_append {i : Instr} (h : ExecCase s i t) :
    ∃ rs : List SymRecord, rs.length ≤ 2 ∧ t.out = s.out ++ rs := by
  cases h with
  | halted => exact ⟨[], by simp, by simp⟩
  | char c =>
    obtain ⟨opening, hlen, hout⟩ := openFrame_out s
    have hdata := dataRecord_length_le (openFrame s).cfg (openFrame s).pos c
    refine ⟨opening ++ dataRecord (openFrame s).cfg (openFrame s).pos c, ?_, ?_⟩
    · rw [List.length_append]; omega
    · simp [dataSymbol_eq, hout]
  | endIdle => exact ⟨[], by simp, by simp⟩
  | endRun =>
    have hcheck := checksumPart_length_le s.cfg s.acc
    refine ⟨checksumPart s.cfg s.acc ++ [⟨.stop, 0, patternStop⟩], ?_, ?_⟩
    · simpa using hcheck
    · simp [closeFrame_eq]

/-- Only an instruction that runs appends records; every other step leaves `OUT` as it is (R31). -/
theorem step_out_append (h : step s = .next t) : ∃ rs : List SymRecord, rs.length ≤ 2 ∧ t.out = s.out ++ rs := by
  cases step_cases h with
  | ran w rest i _ _ _ _ _ hran => exact hran.out_append
  | _ => exact ⟨[], by simp, by simp⟩

end Sys2Proof.Machine
end

section
/-! The statements of the scope family: what every step answers, keeps and runs. -/

namespace Sys2Proof.Machine

/-- Settles O28: with nothing presented a step holds the state; otherwise the event taken is answered. -/
theorem stepAlwaysCompletes : Obligations.StepAlwaysCompletes := by
  intro s hbooted
  cases hport : s.port with
  | nil => exact ⟨s, step_of_port_nil hport⟩
  | cons e rest =>
    rw [step_of_port_cons hport]
    exact runEvent_next e hbooted

/-- Settles O29, by the cases of a step: only an instruction that runs appends. -/
theorem outOnlyGrows : Obligations.OutOnlyGrows := fun _ _ h => step_out_append h

/-- Settles O30: PROM reads and words are functions of the parameters, which no step writes. -/
theorem parametersAndPromNeverChange : Obligations.ParametersAndPromNeverChange := by
  intro s t h
  have hcfg : t.cfg = s.cfg := step_cfg h
  exact ⟨hcfg, fun a => by rw [hcfg]; exact ⟨rfl, rfl⟩⟩

/-- Settles O21: the rules for a legal word and for an empty port; `withFetchWord` is a word in front of the port. -/
theorem stepRunsTheDecodedInstruction : Obligations.StepRunsTheDecodedInstruction := by
  refine ⟨fun _ _ _ _ => step_of_decode_ok, ?_, fun _ => step_of_port_nil⟩
  intro s w i hbooted herr hw
  have hport : (presentWord w s).port = .command w :: s.port := presentWord_port w s
  rw [withFetchWord_toNat, step_of_decode_ok (s := presentWord w s) hbooted herr hport hw, afterTake_presentWord]

end Sys2Proof.Machine
end

section
/-! SUPPORT. The decoder as an equivalence on words, the whole effect of CHAR by phase, the counters as numbers. -/

namespace Sys2Proof

/-! ## The decoder (R60, R66) -/

/-- Each instruction decodes from its own word. -/
theorem decode_encode (i : Instr) : decode (encode i) = .ok i := by
  cases i with
  | char c =>
    have hrow : rowChar.holds (encode (.char c)) = true := by rw [rowChar_holds_iff, encode_char_toNat]; omega
    have hfield : fieldC (encode (.char c)) = c :=
      BitVec.eq_of_toNat_eq (by rw [fieldC, BitVec.toNat_setWidth, encode_char_toNat, Nat.mod_eq_of_lt c.isLt])
    rw [decode, if_pos hrow, hfield]
  | endFrame => rfl

/-- A word that decodes is the word of what it decodes to. -/
theorem encode_of_decode_ok {w : CmdWord} {i : Instr} (h : decode w = .ok i) : encode i = w := by
  unfold decode at h
  split at h
  next hrow =>
    cases h
    have hw : w.toNat < 0x80 := (rowChar_holds_iff w).1 hrow
    apply BitVec.eq_of_toNat_eq
    rw [encode_char_toNat, fieldC, BitVec.toNat_setWidth, Nat.mod_eq_of_lt hw]
  next =>
    split at h
    next hrow =>
      cases h
      exact BitVec.eq_of_toNat_eq ((rowEnd_holds_iff w).1 hrow).symm
    next => cases h

/-- The illegal words are 0x81 to 0xFF. -/
theorem decode_eq_error_iff {w : CmdWord} : decode w = .error .illegalCommand ↔ 0x81 ≤ w.toNat := by
  have hchar := rowChar_holds_iff w
  have hend := rowEnd_holds_iff w
  unfold decode
  split
  next hrow => simp only [reduceCtorEq, false_iff]; have := hchar.1 hrow; omega
  next hrow =>
    have hbit : ¬ w.toNat < 0x80 := mt hchar.2 hrow
    split
    next hrow' => simp only [reduceCtorEq, false_iff]; have := hend.1 hrow'; omega
    next hrow' => simp only [true_iff]; have := mt hend.2 hrow'; omega

namespace Machine

variable {s t : State}

/-! ## The arithmetic of R87 on numbers -/

@[simp] theorem accNext_toNat (c : CharOrd) (acc wgt : BitVec 7) :
    (accNext c acc wgt).toNat = (acc.toNat + cv c * wgt.toNat) % 103 := by
  rw [accNext, BitVec.toNat_ofNat]; omega

@[simp] theorem wgtNext_toNat (wgt : BitVec 7) : (wgtNext wgt).toNat = (wgt.toNat + 1) % 103 := by
  rw [wgtNext, BitVec.toNat_ofNat]; omega

@[simp] theorem lencNext_toNat (lenc : BitVec 5) : (lencNext lenc).toNat = min (lenc.toNat + 1) 20 := by
  rw [lencNext, BitVec.toNat_ofNat]; omega

theorem posNext_lt (idxW pos : Nat) : posNext idxW pos < 2 ^ idxW := Nat.mod_lt _ (Nat.two_pow_pos _)

/-- `POS` counts on without loss while it does not wrap. -/
theorem posNext_of_not_wraps {idxW pos : Nat} (hlt : pos < 2 ^ idxW) (hwrap : posWraps idxW pos = false) :
    posNext idxW pos = pos + 1 := by
  have hne : pos ≠ 2 ^ idxW - 1 := of_decide_eq_false hwrap
  exact Nat.mod_eq_of_lt (by omega)

/-! ## What CHAR does as a whole (R90) -/

/-- CHAR in IDLE with `ERR = 0`: reload, Start record, then the character at position 0. -/
theorem charIdle_eq (c : CharOrd) (hidle : s.phase = .idle) :
    accumulate c (dataSymbol c (openFrame s)) =
      { s with
        phase := .run
        acc := accNext c 1 1
        wgt := wgtNext 1
        lenc := lencNext 0
        pos := posNext s.cfg.idxW 0
        done := false
        unsup := !supported c
        chkskip := false
        posovf := posWraps s.cfg.idxW 0
        out := s.out ++ (⟨.start, 0, patternStart⟩ :: dataRecord s.cfg 0 c) } := by
  simp [openFrame_of_idle hidle, dataSymbol_eq, accumulate]

/-- CHAR in RUN with `ERR = 0`. -/
theorem charRun_eq (c : CharOrd) (hrun : s.phase = .run) :
    accumulate c (dataSymbol c (openFrame s)) =
      { s with
        acc := accNext c s.acc s.wgt
        wgt := wgtNext s.wgt
        lenc := lencNext s.lenc
        pos := posNext s.cfg.idxW s.pos
        unsup := s.unsup || !supported c
        posovf := s.posovf || posWraps s.cfg.idxW s.pos
        out := s.out ++ dataRecord s.cfg s.pos c } := by
  simp [openFrame_of_run hrun, dataSymbol_eq, accumulate]

/-- A supported character has exactly one Data record, at the position given (R92). -/
theorem exists_dataRecord {c : CharOrd} (g : Config) (i : Nat) (h : supported c = true) :
    ∃ p, dataRecord g i c = [⟨.data, i, p⟩] := by
  obtain ⟨d, hd⟩ := promRead_data g h
  exact ⟨_, dataRecord_supported h hd⟩

/-- Supported or not, a character's records are one Data record or none. -/
theorem dataRecord_cases (g : Config) (i : Nat) (c : CharOrd) :
    dataRecord g i c = [] ∨ ∃ p, dataRecord g i c = [⟨.data, i, p⟩] := by
  cases h : supported c with
  | true => exact .inr (exists_dataRecord g i h)
  | false => exact .inl (dataRecord_unsupported h)

/-! ## The frame of a step -/

/-- An instruction that ran leaves the port that its word left: the word is the instruction's own (R12, R60). -/
theorem ExecCase.port_eq {w : CmdWord} {rest : List Event} {i : Instr} (hran : ExecCase (afterTake rest s) i t)
    (hport : s.port = .command w :: rest) (hw : decode w = .ok i) : s.port = .command (encode i) :: t.port := by
  obtain ⟨-, -, -, -, hrest⟩ := exec_keeps hran.exec_eq
  rw [hport, hrest, afterTake_port, encode_of_decode_ok hw]

/-- Records already in `OUT` stay in their places (R31). -/
theorem ExecCase.out_getElem? {i : Instr} (h : ExecCase s i t) {k : Nat} {r : SymRecord} (hr : s.out[k]? = some r) :
    t.out[k]? = some r := by
  obtain ⟨rs, -, hout⟩ := h.out_append
  rw [hout, List.getElem?_append_left (List.getElem?_eq_some_iff.1 hr).1, hr]

end Machine
end Sys2Proof
end

section
/-! SUPPORT. The register invariants of R29: CHAR opens a frame whose counters agree and counts on in it. -/

namespace Sys2Proof.Machine

variable {s t : State}

/-- What CHAR relies on when it counts a character: an open frame whose counters agree, also before the first
character of the frame, when `LENC` is still 0. -/
structure OpenRegs (s : State) : Prop where
  phase : s.phase = .run
  done : s.done = false
  chkskip : s.chkskip = false
  wgt_lenc : s.lenc.toNat < 20 → s.wgt.toNat = s.lenc.toNat + 1
  pos_lenc : s.lenc.toNat < 20 → s.pos = s.lenc.toNat % 2 ^ s.cfg.idxW

/-- In RUN the invariants give it; in IDLE the reload does, whatever the registers held. -/
theorem RegsInv.openRegs (h : RegsInv s) : OpenRegs (openFrame s) := by
  cases hp : s.phase with
  | idle => rw [openFrame_of_idle hp]; constructor <;> simp
  | run => rw [openFrame_of_run hp]; exact ⟨hp, h.run_done hp, h.run_chkskip hp, h.wgt_lenc, h.pos_lenc⟩

theorem OpenRegs.dataSymbol (c : CharOrd) (h : OpenRegs s) : OpenRegs (dataSymbol c s) := by
  rw [dataSymbol_eq]
  exact ⟨h.phase, h.done, h.chkskip, h.wgt_lenc, h.pos_lenc⟩

/-- Counting a character establishes every invariant; the bounds come from the arithmetic of R87. -/
theorem OpenRegs.regsInv_accumulate (c : CharOrd) (h : OpenRegs s) : RegsInv (accumulate c s) where
  acc_le := by simp only [accumulate_acc, accNext_toNat]; omega
  wgt_le := by simp only [accumulate_wgt, wgtNext_toNat]; omega
  lenc_le := by simp
  run_lenc _ := by simp
  run_done _ := h.done
  run_chkskip _ := h.chkskip
  done_idle hdone := absurd hdone (by simp [h.done])
  chkskip_done hskip := absurd hskip (by simp [h.chkskip])
  chkskip_acc hskip := absurd hskip (by simp [h.chkskip])
  chkskip_skip hskip := absurd hskip (by simp [h.chkskip])
  wgt_lenc hlenc := by
    simp only [accumulate_lenc, lencNext_toNat, accumulate_wgt, wgtNext_toNat] at hlenc ⊢
    have := h.wgt_lenc (by omega)
    omega
  pos_lenc hlenc := by
    simp only [accumulate_lenc, lencNext_toNat, accumulate_pos, accumulate_cfg] at hlenc ⊢
    rw [posNext, h.pos_lenc (by omega), Nat.mod_add_mod, Nat.min_eq_left (by omega)]
  fresh hidle := absurd hidle (by simp [h.phase])
  pos_lt := posNext_lt _ _

/-- R34: the reset values meet the invariants, whatever the registers held. -/
theorem regsInv_resetBlock (s : State) : RegsInv (resetBlock s) := by
  constructor <;> simp

/-- R101: END in IDLE leaves the registers of an empty frame. -/
theorem regsInv_emptyFrame (hidle : s.phase = .idle) : RegsInv (emptyFrame s) := by
  constructor <;> simp [hidle]

/-- R102: END in RUN sets `CHKSKIP` only for a remainder of 95 or more under SKIP. -/
theorem RegsInv.closeFrame (h : RegsInv s) (hrun : s.phase = .run) : RegsInv (closeFrame s) := by
  have hskip : (s.chkskip || (chkPattern s.cfg s.acc).isNone) = true →
      95 ≤ s.acc.toNat ∧ s.cfg.chkHi = .skip := by
    rw [h.run_chkskip hrun, Bool.false_or, Option.isNone_iff_eq_none]
    exact (chkPattern_eq_none_iff s.cfg h.acc_le).1
  rw [closeFrame_eq]
  exact {
    acc_le := h.acc_le
    wgt_le := h.wgt_le
    lenc_le := h.lenc_le
    run_lenc := nofun
    run_done := nofun
    run_chkskip := nofun
    done_idle := fun _ => rfl
    chkskip_done := fun _ => rfl
    chkskip_acc := fun hs => (hskip hs).1
    chkskip_skip := fun hs => (hskip hs).2
    wgt_lenc := h.wgt_lenc
    pos_lenc := h.pos_lenc
    fresh := nofun
    pos_lt := h.pos_lt }

/-- Every instruction keeps the invariants. -/
theorem RegsInv.exec {i : Instr} (h : RegsInv s) (hexec : ExecCase s i t) : RegsInv t := by
  cases hexec with
  | halted => exact h
  | char c => exact (h.openRegs.dataSymbol c).regsInv_accumulate c
  | endIdle _ hidle => exact regsInv_emptyFrame hidle
  | endRun _ hrun => exact h.closeFrame hrun

/-- The invariants do not speak of the port. -/
theorem RegsInv.afterTake (rest : List Event) (h : RegsInv s) : RegsInv (afterTake rest s) := { h with }

/-- Nor do they speak of `ERR`. -/
theorem RegsInv.raiseIllegalCommand (h : RegsInv s) : RegsInv (raiseIllegalCommand s) := { h with }

/-- Every step keeps the invariants; after a power cycle nothing is claimed until RESET. -/
theorem BlockInv.step (h : BlockInv s) (hstep : step s = .next t) : BlockInv t := by
  intro hbooted
  cases step_cases hstep with
  | hold => exact h hbooted
  | reset => exact regsInv_resetBlock _
  | power => simp at hbooted
  | ignored w rest _ hs => exact (h hs).afterTake rest
  | illegal w rest _ hs => exact ((h hs).afterTake rest).raiseIllegalCommand
  | ran w rest i _ _ hs _ _ hran => exact ((h hs).afterTake rest).exec hran

end Sys2Proof.Machine
end

section
/-! SUPPORT. Readers of `OUT` (R35, R120): the scan, the latest frame and the Data indices after more records are
appended; and the two invariants on `OUT`. -/

namespace Sys2Proof.Machine

variable {s t : State}

/-! ## The scan of R35 over appended records -/

theorem scanFrom_append (k : OutScan) (rs qs : List SymRecord) :
    scanFrom k (rs ++ qs) = (scanFrom k rs).bind fun k' => scanFrom k' qs := by
  induction rs generalizing k with
  | nil => rfl
  | cons r rs ih =>
    simp only [List.cons_append, scanFrom]
    cases scanRole k r.role with
    | none => rfl
    | some k' => exact ih k'

theorem scanFrom_append_of_some {k k' : OutScan} {rs : List SymRecord} (qs : List SymRecord)
    (h : scanFrom k rs = some k') : scanFrom k (rs ++ qs) = scanFrom k' qs := by
  rw [scanFrom_append, h]; rfl

/-- A frame may begin anywhere but after a Checksum. -/
theorem scanFrom_start {k : OutScan} (h : k ≠ .checked) (idx : Nat) (p : Pattern) :
    scanFrom k [⟨.start, idx, p⟩] = some .opened := by
  cases k with
  | checked => exact absurd rfl h
  | _ => rfl

theorem scanFrom_dataRecord (g : Config) (i : Nat) (c : CharOrd) :
    scanFrom .opened (dataRecord g i c) = some .opened := by
  obtain h | ⟨p, h⟩ := dataRecord_cases g i c <;> rw [h] <;> rfl

/-- END's records close an open frame, with a Checksum or without. -/
theorem scanFrom_closing (g : Config) (acc : BitVec 7) :
    scanFrom .opened (checksumPart g acc ++ [⟨.stop, 0, patternStop⟩]) = some .closed := by
  unfold checksumPart
  cases chkPattern g acc <;> rfl

/-! ## `OutOrdered` from where the last record leaves the reader -/

theorem outOrdered_of_opened (hscan : scanFrom .nothing s.out = some .opened) (hdone : s.done = false) :
    OutOrdered s where
  order := ⟨.opened, hscan, nofun⟩
  run _ _ := hscan
  shut _ hd := absurd hd (by simp [hdone])

theorem outOrdered_of_closed (hscan : scanFrom .nothing s.out = some .closed) (hidle : s.phase = .idle) :
    OutOrdered s where
  order := ⟨.closed, hscan, nofun⟩
  run _ hrun := absurd hrun (by simp [hidle])
  shut _ _ _ := hscan

/-- With no frame shown, only the order itself is claimed. -/
theorem outOrdered_of_not_shown (horder : ∃ k, scanFrom .nothing s.out = some k ∧ k ≠ .checked)
    (hshown : s.booted = true → ¬ frameShown s) : OutOrdered s where
  order := horder
  run hb hrun := absurd (.inl hrun) (hshown hb)
  shut hb hd hl := absurd (.inr ⟨hd, hl⟩) (hshown hb)

/-- Action 2 of CHAR leaves the reader in an open frame. -/
theorem OutOrdered.scanFrom_openFrame (h : OutOrdered s) (hbooted : s.booted = true) :
    scanFrom .nothing (openFrame s).out = some .opened := by
  cases hp : s.phase with
  | idle =>
    obtain ⟨k, hk, hne⟩ := h.order
    rw [openFrame_of_idle hp]
    exact (scanFrom_append_of_some _ hk).trans (scanFrom_start hne _ _)
  | run => rw [openFrame_of_run hp]; exact h.run hbooted hp

theorem OutOrdered.exec {i : Instr} (h : OutOrdered s) (hregs : RegsInv s) (hbooted : s.booted = true)
    (hexec : ExecCase s i t) : OutOrdered t := by
  cases hexec with
  | halted => exact h
  | char c =>
    apply outOrdered_of_opened
    · rw [accumulate_out, dataSymbol_eq]
      exact (scanFrom_append_of_some _ (h.scanFrom_openFrame hbooted)).trans (scanFrom_dataRecord _ _ c)
    · exact (hregs.openRegs.dataSymbol c).done
  | endIdle _ hidle => exact outOrdered_of_not_shown h.order fun _ => by simp [frameShown, hidle]
  | endRun _ hrun =>
    rw [closeFrame_eq]
    refine outOrdered_of_closed ?_ rfl
    rw [List.append_assoc]
    exact (scanFrom_append_of_some _ (h.run hbooted hrun)).trans (scanFrom_closing _ _)

/-- Every step keeps the order of `OUT`. -/
theorem OutOrdered.step (h : OutOrdered s) (hregs : BlockInv s) (hstep : step s = .next t) : OutOrdered t := by
  cases step_cases hstep with
  | hold => exact h
  | reset => exact outOrdered_of_not_shown h.order fun _ => by simp [frameShown]
  | power => exact outOrdered_of_not_shown h.order fun hb => absurd hb (by simp)
  | ignored => exact ⟨h.order, h.run, h.shut⟩
  | illegal => exact ⟨h.order, h.run, h.shut⟩
  | ran w rest i _ _ hs _ _ hran =>
    have htaken : OutOrdered (afterTake rest s) := ⟨h.order, h.run, h.shut⟩
    exact htaken.exec ((hregs hs).afterTake rest) hs hran

/-! ## The latest frame and its Data indices -/

theorem lastFrame_append_start (rs : List SymRecord) (idx : Nat) (p : Pattern) :
    lastFrame (rs ++ [⟨.start, idx, p⟩]) = [⟨.start, idx, p⟩] := by
  induction rs with
  | nil => rfl
  | cons r rs ih => simp [lastFrame, ih]

/-- Records other than Start records join the latest frame. -/
theorem lastFrame_append {qs : List SymRecord} (hqs : ∀ q ∈ qs, q.role ≠ .start) (rs : List SymRecord) :
    lastFrame (rs ++ qs) = lastFrame rs ++ qs := by
  have hnone : qs.any (fun q => decide (q.role = .start)) = false := by simpa using hqs
  induction rs with
  | nil =>
    cases qs with
    | nil => rfl
    | cons q qs =>
      rw [List.any_cons, Bool.or_eq_false_iff] at hnone
      simp [lastFrame, hnone.2]
  | cons r rs ih =>
    simp only [List.cons_append, lastFrame, List.any_append, hnone, Bool.or_false, ih]
    split <;> rfl

theorem dataIndices_append (rs qs : List SymRecord) : dataIndices (rs ++ qs) = dataIndices rs ++ dataIndices qs := by
  simp [dataIndices, recordsOf]

theorem dataRecord_role_ne_start {g : Config} {i : Nat} {c : CharOrd} :
    ∀ q ∈ dataRecord g i c, q.role ≠ .start := by
  obtain h | ⟨p, h⟩ := dataRecord_cases g i c <;> simp [h]

/-- The records of END are neither Start nor Data records. -/
theorem closing_role {g : Config} {acc : BitVec 7} {q : SymRecord}
    (hq : q ∈ checksumPart g acc ++ [⟨.stop, 0, patternStop⟩]) : q.role ≠ .start ∧ q.role ≠ .data := by
  unfold checksumPart at hq
  cases h : chkPattern g acc with
  | none =>
    rw [h] at hq
    obtain rfl : q = _ := by simpa using hq
    simp
  | some p =>
    rw [h] at hq
    obtain rfl | rfl : q = _ ∨ q = _ := by simpa using hq
    · simp
    · simp

/-- END adds no Data index to the latest frame. -/
theorem dataIndices_lastFrame_closeFrame (s : State) :
    dataIndices (lastFrame (closeFrame s).out) = dataIndices (lastFrame s.out) := by
  have hno_data : dataIndices (checksumPart s.cfg s.acc ++ [⟨.stop, 0, patternStop⟩]) = [] := by
    simp only [dataIndices, recordsOf, List.map_eq_nil_iff, List.filter_eq_nil_iff, decide_eq_true_eq]
    exact fun q hq => (closing_role hq).2
  rw [closeFrame_eq, List.append_assoc, lastFrame_append (fun q hq => (closing_role hq).1), dataIndices_append,
    hno_data, List.append_nil]

/-! ## Increasing indices (R27, R92) -/

/-- The Data indices of the latest frame are positions already taken, in increasing order. -/
def IndicesBelowPos (s : State) : Prop :=
  (dataIndices (lastFrame s.out)).Pairwise (· < ·) ∧ ∀ i ∈ dataIndices (lastFrame s.out), i < s.pos

/-- `IndicesIncrease` is this of a RESET block that shows a frame in which `POS` has not wrapped. -/
theorem indicesIncrease_iff :
    IndicesIncrease s ↔ (s.booted = true → frameShown s → s.posovf = false → IndicesBelowPos s) := Iff.rfl

/-- The Start record opens a frame without Data indices. -/
theorem indicesBelowPos_openFrame (h : s.phase = .run → IndicesBelowPos s) : IndicesBelowPos (openFrame s) := by
  cases hp : s.phase with
  | idle => simp [IndicesBelowPos, openFrame_of_idle hp, lastFrame_append_start, dataIndices, recordsOf]
  | run => rw [openFrame_of_run hp]; exact h hp

/-- A Data record at `POS`, and then `POS + 1`: the new index is above those before it and below the new `POS`. -/
theorem IndicesBelowPos.char (c : CharOrd) (h : IndicesBelowPos s) (hpos : posNext s.cfg.idxW s.pos = s.pos + 1) :
    IndicesBelowPos (accumulate c (dataSymbol c s)) := by
  obtain ⟨hsorted, hbelow⟩ := h
  simp only [IndicesBelowPos, dataSymbol_eq, accumulate_out, accumulate_pos, hpos,
    lastFrame_append dataRecord_role_ne_start, dataIndices_append]
  obtain hd | ⟨p, hd⟩ := dataRecord_cases s.cfg s.pos c
  · have hnil : dataIndices (dataRecord s.cfg s.pos c) = [] := by rw [hd]; rfl
    rw [hnil, List.append_nil]
    exact ⟨hsorted, fun i hi => (hbelow i hi).trans (Nat.lt_succ_self _)⟩
  · have hone : dataIndices (dataRecord s.cfg s.pos c) = [s.pos] := by rw [hd]; rfl
    rw [hone]
    refine ⟨List.pairwise_append.2 ⟨hsorted, List.pairwise_singleton _ _, ?_⟩, ?_⟩
    · simpa using hbelow
    · intro i hi
      obtain hi | rfl : i ∈ dataIndices (lastFrame s.out) ∨ i = s.pos := by simpa using hi
      · exact (hbelow i hi).trans (Nat.lt_succ_self _)
      · exact Nat.lt_succ_self _

/-- END moves neither the Data indices nor `POS`. -/
theorem IndicesBelowPos.closeFrame (h : IndicesBelowPos s) : IndicesBelowPos (closeFrame s) := by
  have hpos : (Machine.closeFrame s).pos = s.pos := by rw [closeFrame_eq]
  rwa [IndicesBelowPos, dataIndices_lastFrame_closeFrame, hpos]

theorem openFrame_pos_lt (h : RegsInv s) : (openFrame s).pos < 2 ^ (openFrame s).cfg.idxW := by
  cases hp : s.phase with
  | idle => rw [openFrame_of_idle hp]; exact Nat.two_pow_pos _
  | run => rw [openFrame_of_run hp]; exact h.pos_lt

theorem IndicesIncrease.exec {i : Instr} (h : IndicesIncrease s) (hregs : RegsInv s) (hbooted : s.booted = true)
    (hexec : ExecCase s i t) : IndicesIncrease t := by
  rw [indicesIncrease_iff] at h ⊢
  cases hexec with
  | halted => exact h
  | char c =>
    intro _ _ hovf
    obtain ⟨hovf, hwrap⟩ : (openFrame s).posovf = false ∧
        posWraps (openFrame s).cfg.idxW (openFrame s).pos = false := by
      simpa [dataSymbol_eq] using hovf
    have hopen : IndicesBelowPos (openFrame s) := indicesBelowPos_openFrame fun hrun =>
      h hbooted (.inl hrun) (by rwa [openFrame_of_run hrun] at hovf)
    exact hopen.char c (posNext_of_not_wraps (openFrame_pos_lt hregs) hwrap)
  | endIdle _ hidle =>
    intro _ hshown
    exact absurd hshown (by simp [frameShown, hidle])
  | endRun _ hrun =>
    intro _ _ hovf
    rw [closeFrame_eq] at hovf
    exact (h hbooted (.inl hrun) hovf).closeFrame

/-- Every step keeps the Data indices of the frame shown increasing. -/
theorem IndicesIncrease.step (h : IndicesIncrease s) (hregs : BlockInv s) (hstep : step s = .next t) :
    IndicesIncrease t := by
  cases step_cases hstep with
  | hold => exact h
  | reset => exact fun _ hshown => absurd hshown (by simp [frameShown])
  | power => exact fun hb => absurd hb (by simp)
  | ignored => exact h
  | illegal => exact h
  | ran w rest i _ _ hs _ _ hran =>
    have htaken : IndicesIncrease (afterTake rest s) := h
    exact htaken.exec ((hregs hs).afterTake rest) hs hran

end Sys2Proof.Machine
end

section
/-! SUPPORT. The characters of a string presented one by one: what holds of the registers and of `OUT` after each
initial part of the string (R24 to R27, R91, R92, R117). -/

namespace Sys2Proof.Machine

variable {s t : State}

/-! ## The reference's sums and records over a longer string -/

theorem weightedSum_concat (j : Nat) (cs : List CharOrd) (c : CharOrd) :
    weightedSum j (cs ++ [c]) = weightedSum j cs + ((c.toNat : Int) - 32) * (j + cs.length : Nat) := by
  induction cs generalizing j with
  | nil => simp [weightedSum]
  | cons d cs ih =>
    have hpos : j + 1 + cs.length = j + (cs.length + 1) := by omega
    simp only [List.cons_append, weightedSum, ih, List.length_cons, hpos]
    ring

theorem dataRecords_concat (g : Config) (i : Nat) (cs : List CharOrd) (c : CharOrd) :
    dataRecords g i (cs ++ [c]) = dataRecords g i cs ++ dataRecord g (i + cs.length) c := by
  induction cs generalizing i with
  | nil => simp [dataRecords]
  | cons d cs ih =>
    have hpos : i + 1 + cs.length = i + (cs.length + 1) := by omega
    simp [dataRecords, ih, hpos]

/-- The reference's Data record with its index wrapped is the one formed at the wrapped `POS` (R116 (a)). -/
theorem map_wrapIndex_dataRecord (g : Config) (idxW i : Nat) (c : CharOrd) :
    (dataRecord g i c).map (wrapIndex idxW) = dataRecord g (i % 2 ^ idxW) c := by
  unfold dataRecord
  split
  · split <;> rfl
  · rfl

/-- `cv` as an integer is the Euclidean residue of `c - 32` (R81). -/
theorem cv_eq_emod (c : CharOrd) : (cv c : Int) = ((c.toNat : Int) - 32) % 103 :=
  Int.toNat_of_nonneg (Int.emod_nonneg _ (by decide))

/-- R117: one step of the residue loses nothing of the unbounded sum. -/
theorem residue_step_eq (c : CharOrd) {acc wgt k : Nat} {total : Int} (hacc : (acc : Int) = total % 103)
    (hwgt : wgt = k % 103) :
    (((acc + cv c * wgt) % 103 : Nat) : Int) = (total + ((c.toNat : Int) - 32) * k) % 103 := by
  push_cast
  rw [hacc, hwgt, cv_eq_emod, Int.natCast_emod]
  exact (Int.mod_modEq total 103).add ((Int.mod_modEq _ 103).mul (Int.mod_modEq _ 103))

/-! ## The open frame after a string's first characters -/

/-- `t` is `s₀` after `frame_init()`, the Start record and the characters `cs`: registers and `OUT` as functions
of `cs`. What is at the port is not said. -/
structure CharsTaken (s₀ : State) (cs : List CharOrd) (t : State) : Prop where
  phase : t.phase = .run
  acc : (t.acc.toNat : Int) = (104 + weightedSum 1 cs) % 103
  wgt : t.wgt.toNat = (cs.length + 1) % 103
  lenc : t.lenc.toNat = min cs.length 20
  pos : t.pos = cs.length % 2 ^ s₀.cfg.idxW
  done : t.done = false
  err : t.err = false
  chkskip : t.chkskip = false
  unsup : t.unsup = true ↔ ∃ c ∈ cs, supported c = false
  posovf : t.posovf = true ↔ 2 ^ s₀.cfg.idxW ≤ cs.length
  out : t.out = s₀.out ++ ⟨.start, 0, patternStart⟩ :: (dataRecords s₀.cfg 0 cs).map (wrapIndex s₀.cfg.idxW)
  cfg : t.cfg = s₀.cfg
  booted : t.booted = true

/-- The frame just opened holds the empty string. -/
theorem charsTaken_openFrame (hbooted : s.booted = true) (herr : s.err = false) (hidle : s.phase = .idle) :
    CharsTaken s [] (openFrame s) := by
  rw [openFrame_of_idle hidle]
  constructor <;> simp [weightedSum, dataRecords, hbooted, herr]

/-- `POS` wraps at a multiple of `2^IDX_W`, so `POSOVF` tells whether it was ever reached (R27, R28). -/
theorem posovf_step_iff {idxW k : Nat} {ovf : Bool} (hovf : ovf = true ↔ 2 ^ idxW ≤ k) :
    (ovf || posWraps idxW (k % 2 ^ idxW)) = true ↔ 2 ^ idxW ≤ k + 1 := by
  have hpos : 0 < 2 ^ idxW := Nat.two_pow_pos idxW
  rw [Bool.or_eq_true, hovf, posWraps, decide_eq_true_iff]
  by_cases hk : 2 ^ idxW ≤ k
  · simp only [hk, true_or, true_iff]; omega
  · rw [Nat.mod_eq_of_lt (by omega)]; omega

/-- Actions 3 to 8 of CHAR lengthen the string by the character. -/
theorem CharsTaken.char {s₀ : State} {cs : List CharOrd} (c : CharOrd) (h : CharsTaken s₀ cs t) :
    CharsTaken s₀ (cs ++ [c]) (accumulate c (dataSymbol c t)) := by
  rw [dataSymbol_eq]
  constructor
  case phase => exact h.phase
  case done => exact h.done
  case err => exact h.err
  case chkskip => exact h.chkskip
  case cfg => exact h.cfg
  case booted => exact h.booted
  case acc =>
    rw [accumulate_acc, accNext_toNat, weightedSum_concat, ← Int.add_assoc, Nat.add_comm 1]
    exact residue_step_eq c h.acc h.wgt
  case wgt => simp [h.wgt]
  case lenc =>
    simp only [accumulate_lenc, lencNext_toNat, h.lenc, List.length_append, List.length_singleton]
    omega
  case pos => simp [posNext, h.pos, h.cfg]
  case unsup =>
    have hiff := h.unsup
    simp only [accumulate_unsup, Bool.or_eq_true, Bool.not_eq_true', hiff, List.mem_append, List.mem_singleton,
      or_and_right, exists_or, exists_eq_left]
  case posovf =>
    simp only [accumulate_posovf, h.cfg, h.pos, List.length_append, List.length_singleton]
    exact posovf_step_iff h.posovf
  case out =>
    simp [h.out, h.cfg, h.pos, dataRecords_concat, map_wrapIndex_dataRecord]

/-! ## Running the characters -/

/-- CHAR presented to a RESET block without a fault: the step runs it, and leaves the rest of the port. -/
theorem step_char {c : CharOrd} {rest : List Event} (hbooted : s.booted = true) (herr : s.err = false)
    (hport : s.port = commandOf (.char c) :: rest) :
    step s = .next (accumulate c (dataSymbol c (openFrame (afterTake rest s)))) := by
  rw [step_of_decode_ok hbooted herr hport (decode_encode _)]
  exact (ExecCase.char (s := afterTake rest s) c herr).exec_eq

theorem port_accumulate_dataSymbol_openFrame (c : CharOrd) (s : State) :
    (accumulate c (dataSymbol c (openFrame s))).port = s.port := by
  cases hp : s.phase with
  | idle => rw [charIdle_eq c hp]
  | run => rw [charRun_eq c hp]

/-- Inside an open frame, the characters presented lengthen the string taken. -/
theorem CharsTaken.run {s₀ : State} {pre : List CharOrd} (cs : List CharOrd) {rest : List Event}
    (h : CharsTaken s₀ pre s) (hport : s.port = strEvents cs ++ rest) :
    ∃ t, Host.Core.run core cs.length s = .next t ∧ CharsTaken s₀ (pre ++ cs) t ∧ t.port = rest := by
  induction cs generalizing s pre with
  | nil => exact ⟨s, rfl, by rwa [List.append_nil], hport⟩
  | cons c cs ih =>
    have htaken : CharsTaken s₀ pre (afterTake (strEvents cs ++ rest) s) := { h with }
    have hnext := htaken.char c
    rw [← openFrame_of_run htaken.phase] at hnext
    obtain ⟨t, hrun, ht, hrest⟩ := ih hnext (port_accumulate_dataSymbol_openFrame _ _)
    rw [List.append_assoc, List.singleton_append] at ht
    exact ⟨t, (core_run_of_step (step_char h.booted h.err hport) _).trans hrun, ht, hrest⟩

/-- From IDLE, a non-empty string is taken by its first CHAR, which opens the frame, and the CHARs after it. -/
theorem run_strEvents {cs : List CharOrd} {rest : List Event} (hsafe : Safe s) (hidle : s.phase = .idle)
    (hne : cs ≠ []) (hport : s.port = strEvents cs ++ rest) :
    ∃ t, Host.Core.run core cs.length s = .next t ∧ CharsTaken s cs t ∧ t.port = rest := by
  obtain ⟨hbooted, herr⟩ := hsafe
  cases cs with
  | nil => exact absurd rfl hne
  | cons c cs =>
    have hopen : CharsTaken s [] (openFrame (afterTake (strEvents cs ++ rest) s)) :=
      { charsTaken_openFrame (s := afterTake (strEvents cs ++ rest) s) hbooted herr hidle with }
    obtain ⟨t, hrun, ht, hrest⟩ := (hopen.char c).run cs (port_accumulate_dataSymbol_openFrame _ _)
    exact ⟨t, (core_run_of_step (step_char hbooted herr hport) _).trans hrun, ht, hrest⟩

end Sys2Proof.Machine
end

section
/-! SUPPORT. The flag table of R28, flag by flag: first what an instruction can do to each flag, then what a step of
a block that keeps its power can. -/

namespace Sys2Proof.Machine

variable {s t : State}

/-! ## Flags over one instruction -/

theorem ExecCase.done_rises {i : Instr} (h : ExecCase s i t) (hs : s.done = false) (ht : t.done = true) :
    i = .endFrame := by
  cases h with
  | halted => simp [hs] at ht
  | char c =>
    cases hp : s.phase with
    | idle => simp [charIdle_eq c hp] at ht
    | run => simp [charRun_eq c hp, hs] at ht
  | endIdle => rfl
  | endRun => rfl

theorem ExecCase.done_falls {i : Instr} (h : ExecCase s i t) (hs : s.done = true) (ht : t.done = false) :
    (∃ c, i = .char c) ∧ s.phase = .idle := by
  cases h with
  | halted => simp [hs] at ht
  | char c =>
    cases hp : s.phase with
    | idle => exact ⟨⟨c, rfl⟩, rfl⟩
    | run => simp [charRun_eq c hp, hs] at ht
  | endIdle => simp at ht
  | endRun => simp [closeFrame_eq] at ht

theorem ExecCase.unsup_rises {i : Instr} (h : ExecCase s i t) (hs : s.unsup = false) (ht : t.unsup = true) :
    ∃ c, i = .char c ∧ supported c = false := by
  cases h with
  | halted => simp [hs] at ht
  | char c =>
    refine ⟨c, rfl, ?_⟩
    cases hp : s.phase with
    | idle => simpa [charIdle_eq c hp] using ht
    | run => simpa [charRun_eq c hp, hs] using ht
  | endIdle => simp at ht
  | endRun => simp [closeFrame_eq, hs] at ht

theorem ExecCase.chkskip_rises {i : Instr} (h : ExecCase s i t) (hs : s.chkskip = false) (ht : t.chkskip = true) :
    i = .endFrame ∧ s.phase = .run ∧ chkPattern s.cfg s.acc = none := by
  cases h with
  | halted => simp [hs] at ht
  | char c =>
    cases hp : s.phase with
    | idle => simp [charIdle_eq c hp] at ht
    | run => simp [charRun_eq c hp, hs] at ht
  | endIdle => simp at ht
  | endRun _ hrun => exact ⟨rfl, hrun, by simpa [closeFrame_eq, hs] using ht⟩

theorem ExecCase.posovf_rises {i : Instr} (h : ExecCase s i t) (hs : s.posovf = false) (ht : t.posovf = true) :
    (∃ c, i = .char c) ∧ (s.phase = .run → s.pos = 2 ^ s.cfg.idxW - 1) ∧
      (s.phase = .idle → 0 = 2 ^ s.cfg.idxW - 1) := by
  cases h with
  | halted => simp [hs] at ht
  | char c =>
    refine ⟨⟨c, rfl⟩, fun hrun => ?_, fun hidle => ?_⟩
    · simpa [charRun_eq c hrun, hs, posWraps] using ht
    · simpa only [charIdle_eq c hidle, posWraps, decide_eq_true_eq] using ht
  | endIdle => simp at ht
  | endRun => simp [closeFrame_eq, hs] at ht

/-- In RUN an instruction clears none of `UNSUP`, `CHKSKIP` and `POSOVF`. -/
theorem ExecCase.flags_kept_of_run {i : Instr} (h : ExecCase s i t) (hrun : s.phase = .run) :
    (s.unsup = true → t.unsup = true) ∧ (s.chkskip = true → t.chkskip = true) ∧
      (s.posovf = true → t.posovf = true) := by
  cases h with
  | halted => exact ⟨id, id, id⟩
  | char c =>
    rw [charRun_eq c hrun]
    exact ⟨fun hs => by simp [hs], id, fun hs => by simp [hs]⟩
  | endIdle _ hidle => simp [hrun] at hidle
  | endRun =>
    rw [closeFrame_eq]
    exact ⟨id, fun hs => by simp [hs], id⟩

theorem ExecCase.flag_falls {i : Instr} (h : ExecCase s i t)
    (hfall : s.unsup = true ∧ t.unsup = false ∨ s.chkskip = true ∧ t.chkskip = false ∨
      s.posovf = true ∧ t.posovf = false) : s.phase = .idle := by
  cases hp : s.phase with
  | idle => rfl
  | run =>
    obtain ⟨hunsup, hskip, hovf⟩ := h.flags_kept_of_run hp
    obtain ⟨hs, ht⟩ | ⟨hs, ht⟩ | ⟨hs, ht⟩ := hfall
    · simp [hunsup hs] at ht
    · simp [hskip hs] at ht
    · simp [hovf hs] at ht

/-! ## Flags over one step -/

/-- What a step of a block that is and stays powered can be, seen from the flags: no flag changes; RESET clears
them all; an illegal word sets `ERR` alone; or an instruction runs on the same registers and keeps `ERR`. -/
inductive FlagCase (s t : State) : Prop where
  | quiet (done : t.done = s.done) (err : t.err = s.err) (unsup : t.unsup = s.unsup)
      (chkskip : t.chkskip = s.chkskip) (posovf : t.posovf = s.posovf)
  | reset (also : Option CmdWord) (port : s.port = .reset also :: t.port) (done : t.done = false)
      (err : t.err = false) (unsup : t.unsup = false) (chkskip : t.chkskip = false) (posovf : t.posovf = false)
  | illegal (w : CmdWord) (port : s.port = .command w :: t.port) (word : 0x81 ≤ w.toNat) (done : t.done = s.done)
      (err : s.err = false) (unsup : t.unsup = s.unsup) (chkskip : t.chkskip = s.chkskip)
      (posovf : t.posovf = s.posovf)
  | ran (i : Instr) (port : s.port = .command (encode i) :: t.port) (err : s.err = false) (errKept : t.err = false)
      (ran : ExecCase (afterTake t.port s) i t)

theorem step_flagCase (h : step s = .next t) (hbooted : t.booted = true) : FlagCase s t := by
  cases step_cases h with
  | hold => exact .quiet rfl rfl rfl rfl rfl
  | reset also rest hport => exact .reset also hport rfl rfl rfl rfl rfl
  | power => simp at hbooted
  | ignored => exact .quiet rfl rfl rfl rfl rfl
  | illegal w rest hport _ herr hw => exact .illegal w hport (decode_eq_error_iff.1 hw) rfl herr rfl rfl rfl
  | ran w rest i _ hport _ herr hw hran =>
    obtain ⟨hkeep, -, -, -, hrest⟩ := exec_keeps hran.exec_eq
    obtain rfl : t.port = rest := hrest
    exact .ran i (hran.port_eq hport hw) herr (hkeep.trans herr) hran

namespace FlagCase

theorem done_rises (h : FlagCase s t) (hs : s.done = false) (ht : t.done = true) :
    s.port = .command 0x80 :: t.port ∧ s.err = false := by
  cases h with
  | quiet done | illegal _ _ _ done => simp [done, hs] at ht
  | reset _ _ done => simp [done] at ht
  | ran i port err _ ran =>
    obtain rfl := ran.done_rises hs ht
    exact ⟨port, err⟩

theorem done_falls (h : FlagCase s t) (hs : s.done = true) (ht : t.done = false) :
    (∃ also, s.port = .reset also :: t.port) ∨
      (∃ c, s.port = .command (encode (.char c)) :: t.port ∧ s.phase = .idle ∧ s.err = false) := by
  cases h with
  | quiet done | illegal _ _ _ done => simp [done, hs] at ht
  | reset also port => exact .inl ⟨also, port⟩
  | ran i port err _ ran =>
    obtain ⟨⟨c, rfl⟩, hidle⟩ := ran.done_falls hs ht
    exact .inr ⟨c, port, hidle, err⟩

theorem err_rises (h : FlagCase s t) (hs : s.err = false) (ht : t.err = true) :
    ∃ w, s.port = .command w :: t.port ∧ 0x81 ≤ w.toNat := by
  cases h with
  | quiet _ err => simp [err, hs] at ht
  | reset _ _ _ err | ran _ _ _ err => simp [err] at ht
  | illegal w port word => exact ⟨w, port, word⟩

theorem err_falls (h : FlagCase s t) (hs : s.err = true) (ht : t.err = false) :
    ∃ also, s.port = .reset also :: t.port := by
  cases h with
  | quiet _ err => simp [err, hs] at ht
  | reset also port => exact ⟨also, port⟩
  | illegal _ _ _ _ err | ran _ _ err => simp [hs] at err

theorem unsup_rises (h : FlagCase s t) (hs : s.unsup = false) (ht : t.unsup = true) :
    ∃ c, s.port = .command (encode (.char c)) :: t.port ∧ supported c = false ∧ s.err = false := by
  cases h with
  | quiet _ _ unsup | illegal _ _ _ _ _ unsup => simp [unsup, hs] at ht
  | reset _ _ _ _ unsup => simp [unsup] at ht
  | ran i port err _ ran =>
    obtain ⟨c, rfl, hc⟩ := ran.unsup_rises hs ht
    exact ⟨c, port, hc, err⟩

theorem chkskip_rises (h : FlagCase s t) (hs : s.chkskip = false) (ht : t.chkskip = true) :
    s.port = .command 0x80 :: t.port ∧ s.phase = .run ∧ chkPattern s.cfg s.acc = none ∧ s.err = false := by
  cases h with
  | quiet _ _ _ chkskip | illegal _ _ _ _ _ _ chkskip => simp [chkskip, hs] at ht
  | reset _ _ _ _ _ chkskip => simp [chkskip] at ht
  | ran i port err _ ran =>
    obtain ⟨rfl, hrun, hnone⟩ := ran.chkskip_rises hs ht
    exact ⟨port, hrun, hnone, err⟩

theorem posovf_rises (h : FlagCase s t) (hs : s.posovf = false) (ht : t.posovf = true) :
    ∃ c, s.port = .command (encode (.char c)) :: t.port ∧ s.err = false ∧
      (s.phase = .run → s.pos = 2 ^ s.cfg.idxW - 1) ∧ (s.phase = .idle → 0 = 2 ^ s.cfg.idxW - 1) := by
  cases h with
  | quiet _ _ _ _ posovf | illegal _ _ _ _ _ _ _ posovf => simp [posovf, hs] at ht
  | reset _ _ _ _ _ _ posovf => simp [posovf] at ht
  | ran i port err _ ran =>
    obtain ⟨⟨c, rfl⟩, hrun, hidle⟩ := ran.posovf_rises hs ht
    exact ⟨c, port, err, hrun, hidle⟩

theorem flag_falls (h : FlagCase s t)
    (hfall : s.unsup = true ∧ t.unsup = false ∨ s.chkskip = true ∧ t.chkskip = false ∨
      s.posovf = true ∧ t.posovf = false) :
    (∃ also, s.port = .reset also :: t.port) ∨
      (∃ i, s.port = .command (encode i) :: t.port ∧ s.phase = .idle ∧ s.err = false) := by
  cases h with
  | quiet _ _ unsup chkskip posovf | illegal _ _ _ _ _ unsup chkskip posovf =>
    simp [unsup, chkskip, posovf] at hfall
  | reset also port => exact .inl ⟨also, port⟩
  | ran i port err _ ran => exact .inr ⟨i, port, ran.flag_falls hfall, err⟩

end FlagCase
end Sys2Proof.Machine
end

section
/-! SUPPORT. A frame's shape (R120): `frames` over records in the order of R35. -/

namespace Sys2Proof.Machine

/-- The roles a reader may still see, from a position in the order, before the next Start record or the end, where
no Checksum is last. -/
def TailRoles : OutScan → List Role → Prop
  | .nothing, l => l = []
  | .opened, l => ∃ n, l = List.replicate n .data ∨ l = List.replicate n .data ++ [.stop] ∨
      l = List.replicate n .data ++ [.checksum, .stop]
  | .checked, l => l = [.stop]
  | .closed, l => l = []

/-- A frame as it is split off: a Start record, and then roles of an open frame. -/
def WholeFrame (f : List SymRecord) : Prop := ∃ l, f.map (·.role) = .start :: l ∧ TailRoles .opened l

/-- The records before the first Start record in front of the frames after them. -/
def attachTail (tail : List SymRecord) (fs : List (List SymRecord)) : List (List SymRecord) :=
  if tail = [] then fs else tail :: fs

/-- A Start record is in order anywhere but after a Checksum, and opens a frame. -/
theorem scanRole_start {k k' : OutScan} (h : scanRole k .start = some k') : k ≠ .checked ∧ k' = .opened := by
  cases k with
  | checked => cases h
  | nothing | opened | closed => cases h; exact ⟨nofun, rfl⟩

theorem tailRoles_nil {k : OutScan} (hk : k ≠ .checked) : TailRoles k [] := by
  cases k with
  | checked => exact absurd rfl hk
  | opened => exact ⟨0, .inl rfl⟩
  | nothing => rfl
  | closed => rfl

/-- Only an open frame and a Checksum are followed by anything but a Start record. -/
theorem TailRoles.cons {k k' : OutScan} {r : Role} {l : List Role} (h : TailRoles k' l)
    (hscan : scanRole k r = some k') (hr : r ≠ .start) : TailRoles k (r :: l) := by
  cases k with
  | nothing | closed =>
    cases r with
    | start => exact absurd rfl hr
    | data | checksum | stop => cases hscan
  | checked =>
    cases r with
    | stop => cases hscan; rw [TailRoles] at h; subst h; rfl
    | start | data | checksum => cases hscan
  | opened =>
    cases r with
    | start => exact absurd rfl hr
    | data =>
      cases hscan
      obtain ⟨n, rfl | rfl | rfl⟩ := h
      · exact ⟨n + 1, .inl rfl⟩
      · exact ⟨n + 1, .inr (.inl rfl)⟩
      · exact ⟨n + 1, .inr (.inr rfl)⟩
    | checksum => cases hscan; rw [TailRoles] at h; subst h; exact ⟨0, .inr (.inr rfl)⟩
    | stop => cases hscan; rw [TailRoles] at h; subst h; exact ⟨0, .inr (.inl rfl)⟩

/-- No Start record is among the roles that may still come. -/
theorem TailRoles.start_notMem {k : OutScan} {l : List Role} (h : TailRoles k l) : Role.start ∉ l := by
  cases k with
  | nothing | checked | closed => rw [TailRoles] at h; subst h; simp
  | opened => obtain ⟨n, rfl | rfl | rfl⟩ := h <;> simp

theorem TailRoles.startLed_eq_false {k : OutScan} {f : List SymRecord} (h : TailRoles k (f.map (·.role))) :
    startLed f = false := by
  cases f with
  | nil => rfl
  | cons r f =>
    refine decide_eq_false fun hr => h.start_notMem ?_
    simp [hr]

theorem WholeFrame.startLed {f : List SymRecord} (h : WholeFrame f) : startLed f = true := by
  obtain ⟨l, hl, -⟩ := h
  cases f with
  | nil => cases hl
  | cons r f => exact decide_eq_true (List.cons.inj hl).1

/-- A record in front joins the records before the first Start record. -/
theorem frames_cons {r : SymRecord} {rs tail : List SymRecord} {fs : List (List SymRecord)}
    (hrs : frames rs = attachTail tail fs) (htail : startLed tail = false) (hfs : ∀ f ∈ fs, startLed f = true) :
    frames (r :: rs) = (r :: tail) :: fs := by
  rw [frames, hrs]
  cases tail with
  | cons q tail => simp [attachTail, htail]
  | nil =>
    cases fs with
    | nil => simp [attachTail]
    | cons f fs => simp [attachTail, hfs f List.mem_cons_self]

/-- From any position, records in order are the rest of the frame being read and then whole frames. -/
theorem frames_of_scanFrom {rs : List SymRecord} {k k' : OutScan} (hscan : scanFrom k rs = some k')
    (hk : k' ≠ .checked) :
    ∃ tail fs, frames rs = attachTail tail fs ∧ TailRoles k (tail.map (·.role)) ∧
      ∀ f ∈ fs, WholeFrame f := by
  induction rs generalizing k with
  | nil =>
    cases hscan
    exact ⟨[], [], rfl, tailRoles_nil hk, nofun⟩
  | cons r rs ih =>
    cases hr : scanRole k r.role with
    | none => simp [scanFrom, hr] at hscan
    | some k₁ =>
      obtain ⟨tail, fs, hframes, htail, hwhole⟩ := ih (by simpa only [scanFrom, hr] using hscan)
      have hcons : frames (r :: rs) = (r :: tail) :: fs :=
        frames_cons hframes htail.startLed_eq_false fun f hf => (hwhole f hf).startLed
      by_cases hstart : r.role = .start
      · rw [hstart] at hr
        obtain ⟨hne, rfl⟩ := scanRole_start hr
        refine ⟨[], (r :: tail) :: fs, hcons, tailRoles_nil hne, List.forall_mem_cons.2 ⟨?_, hwhole⟩⟩
        exact ⟨tail.map (·.role), by simp [hstart], htail⟩
      · exact ⟨r :: tail, fs, hcons, htail.cons hr hstart, hwhole⟩

/-- Splitting at Start records loses and adds nothing. -/
theorem frames_flatten (rs : List SymRecord) : (frames rs).flatten = rs := by
  induction rs with
  | nil => rfl
  | cons r rs ih =>
    unfold frames
    split
    next h => rw [h] at ih; simp [← ih]
    next f fs h =>
      rw [h] at ih
      split <;> simp [← ih]

/-- A frame is complete exactly when its last role is Stop (R120). -/
theorem frameComplete_iff (f : List SymRecord) :
    frameComplete f = true ↔ (f.map (·.role)).getLast? = some .stop := by
  rw [List.getLast?_map, frameComplete]
  cases f.getLast? <;> simp

/-- A Start and Data records alone do not end in a Stop. -/
theorem getLast?_start_replicate_ne_stop (n : Nat) :
    (Role.start :: List.replicate n .data).getLast? ≠ some .stop := fun h => by
  have hmem := List.mem_of_getLast? h
  simp at hmem

theorem WholeFrame.head? {f : List SymRecord} (h : WholeFrame f) : f.head?.map (·.role) = some .start := by
  obtain ⟨l, hl, -⟩ := h
  rw [← List.head?_map, hl, List.head?_cons]

theorem WholeFrame.complete {f : List SymRecord} (h : WholeFrame f) (hc : frameComplete f = true) :
    ∃ n, f.map (·.role) = [Role.start] ++ List.replicate n Role.data ++ [Role.stop] ∨
      f.map (·.role) = [Role.start] ++ List.replicate n Role.data ++ [Role.checksum, Role.stop] := by
  obtain ⟨l, hl, n, rfl | rfl | rfl⟩ := h
  · rw [frameComplete_iff, hl] at hc
    exact absurd hc (getLast?_start_replicate_ne_stop n)
  · exact ⟨n, .inl hl⟩
  · exact ⟨n, .inr hl⟩

theorem WholeFrame.incomplete {f : List SymRecord} (h : WholeFrame f) (hc : frameComplete f = false) :
    ∃ n, f.map (·.role) = [Role.start] ++ List.replicate n Role.data := by
  rw [← Bool.not_eq_true, frameComplete_iff] at hc
  obtain ⟨l, hl, n, rfl | rfl | rfl⟩ := h
  · exact ⟨n, hl⟩
  · simp [hl, List.getLast?_cons] at hc
  · simp [hl, List.getLast?_cons] at hc

end Sys2Proof.Machine
end

section
/-! SUPPORT. What one command answers when the records already in `OUT`, the port and the count of power-ups are
exchanged (R32), the roles of the records appended (R35), and the outputs of a RESET block (R151). -/

namespace Sys2Proof.Machine

variable {s t : State}

/-! ## Exchanging what is no register -/

/-- The same registers and parameters with other records in `OUT`, another port and another count of power-ups. -/
def withSurroundings (o : List SymRecord) (p : List Event) (n : Nat) (s : State) : State :=
  { s with out := o, port := p, powerUps := n }

/-- R32: an instruction answers the same with other surroundings, and its records come after the other `OUT`. -/
theorem ExecCase.withSurroundings {i : Instr} (h : ExecCase s i t) :
    ∃ rs, t.out = s.out ++ rs ∧ ∀ (o : List SymRecord) (p : List Event) (n : Nat),
      ExecCase (withSurroundings o p n s) i (withSurroundings (o ++ rs) p n t) := by
  cases h with
  | halted i err =>
    refine ⟨[], (List.append_nil _).symm, fun o p n => ?_⟩
    rw [List.append_nil]
    exact .halted i err
  | char c err =>
    cases hp : s.phase with
    | idle =>
      refine ⟨⟨.start, 0, patternStart⟩ :: dataRecord s.cfg 0 c, by rw [charIdle_eq c hp], fun o p n => ?_⟩
      have hcase := ExecCase.char (s := Machine.withSurroundings o p n s) c err
      rw [charIdle_eq c hp]
      rwa [charIdle_eq (s := Machine.withSurroundings o p n s) c hp] at hcase
    | run =>
      refine ⟨dataRecord s.cfg s.pos c, by rw [charRun_eq c hp], fun o p n => ?_⟩
      have hcase := ExecCase.char (s := Machine.withSurroundings o p n s) c err
      rw [charRun_eq c hp]
      rwa [charRun_eq (s := Machine.withSurroundings o p n s) c hp] at hcase
  | endIdle err idle =>
    refine ⟨[], (List.append_nil _).symm, fun o p n => ?_⟩
    rw [List.append_nil]
    exact .endIdle (s := Machine.withSurroundings o p n s) err idle
  | endRun err run =>
    refine ⟨checksumPart s.cfg s.acc ++ [⟨.stop, 0, patternStop⟩], by rw [closeFrame_eq, List.append_assoc],
      fun o p n => ?_⟩
    have hcase := ExecCase.endRun (s := Machine.withSurroundings o p n s) err run
    rw [closeFrame_eq, List.append_assoc] at hcase ⊢
    exact hcase

/-- R33: from IDLE with `ERR = 0` an instruction reloads every register it goes on to read, so that two states with
the same parameters are answered alike but for their own `OUT`, boot bit, power-up count and port. -/
theorem exec_of_idle (i : Instr) {s s' : State} (hcfg : s.cfg = s'.cfg) (hidle : s.phase = .idle)
    (hidle' : s'.phase = .idle) (herr : s.err = false) (herr' : s'.err = false) :
    ∃ t rs, exec i s = .next t ∧ t.out = s.out ++ rs ∧
      exec i s' = .next { t with
        out := s'.out ++ rs, booted := s'.booted, powerUps := s'.powerUps, port := s'.port } := by
  cases i with
  | char c =>
    refine ⟨_, ⟨.start, 0, patternStart⟩ :: dataRecord s.cfg 0 c, (ExecCase.char c herr).exec_eq,
      by rw [charIdle_eq c hidle], ?_⟩
    rw [(ExecCase.char c herr').exec_eq, charIdle_eq c hidle, charIdle_eq c hidle', hcfg, herr, herr']
  | endFrame =>
    refine ⟨_, [], (ExecCase.endIdle herr hidle).exec_eq, (List.append_nil _).symm, ?_⟩
    rw [(ExecCase.endIdle herr' hidle').exec_eq]
    simp [emptyFrame, frameInit, hcfg, hidle, hidle', herr, herr']

/-! ## The rows of the phase machine (R35) -/

/-- The roles of a character's records. -/
theorem dataRecord_roles (g : Config) (i : Nat) (c : CharOrd) :
    (dataRecord g i c).map (·.role) = if supported c then [.data] else [] := by
  cases hc : supported c with
  | true => obtain ⟨p, hp⟩ := exists_dataRecord g i hc; simp [hp]
  | false => simp [hc]

/-- The rows of CHAR: a Start record exactly in IDLE, a Data record exactly for a supported character. -/
theorem ExecCase.char_row {c : CharOrd} (h : ExecCase s (.char c) t) (herr : s.err = false) :
    ∃ rs, t.out = s.out ++ rs ∧ t.phase = .run ∧
      (s.phase = .idle → rs.map (·.role) = .start :: if supported c then [.data] else []) ∧
      (s.phase = .run → rs.map (·.role) = if supported c then [.data] else []) := by
  cases h with
  | halted _ err => simp [herr] at err
  | char =>
    cases hp : s.phase with
    | idle =>
      rw [charIdle_eq c hp]
      exact ⟨_, rfl, rfl, fun _ => congrArg (_ :: ·) (dataRecord_roles _ _ c), nofun⟩
    | run =>
      rw [charRun_eq c hp]
      exact ⟨_, rfl, hp, nofun, fun _ => dataRecord_roles _ _ c⟩

/-- The rows of END: nothing in IDLE; in RUN a Checksum where the remainder has a pattern, and a Stop. -/
theorem ExecCase.end_row (h : ExecCase s .endFrame t) (herr : s.err = false) :
    ∃ rs, t.out = s.out ++ rs ∧ t.phase = .idle ∧ (s.phase = .idle → rs = []) ∧
      (s.phase = .run → chkPattern s.cfg s.acc ≠ none → rs.map (·.role) = [.checksum, .stop]) ∧
      (s.phase = .run → chkPattern s.cfg s.acc = none → rs.map (·.role) = [.stop]) := by
  cases h with
  | halted _ err => simp [herr] at err
  | endIdle _ idle => exact ⟨[], by simp, idle, fun _ => rfl, by simp [idle], by simp [idle]⟩
  | endRun _ run =>
    rw [closeFrame_eq, List.append_assoc]
    refine ⟨_, rfl, rfl, by simp [run], fun _ hsome => ?_, fun _ hnone => ?_⟩
    · obtain ⟨p, hp⟩ := Option.ne_none_iff_exists'.1 hsome
      simp [checksumPart, hp]
    · simp [checksumPart, hnone]

/-- A RESET event is answered by RESET, whatever is presented with it (R150). -/
theorem step_of_reset {also : Option CmdWord} {rest : List Event} (hport : s.port = .reset also :: rest) :
    step s = .next (resetBlock (afterTake rest s)) :=
  step_of_port_cons hport

/-- An illegal word with `ERR = 0` sets `ERR` (R138). -/
theorem step_of_illegal {w : CmdWord} {rest : List Event} (hbooted : s.booted = true) (herr : s.err = false)
    (hport : s.port = .command w :: rest) (hw : 0x81 ≤ w.toNat) :
    step s = .next (raiseIllegalCommand (afterTake rest s)) := by
  rw [step_of_port_cons hport]
  exact runCommand_of_decode_error (s := afterTake rest s) hbooted herr (decode_eq_error_iff.2 hw)

/-- R151: the outputs are a function of the registers, all of which RESET sets. -/
theorem outputs_resetBlock (s : State) :
    outputs (resetBlock s) = { status := 0x00, chkval := 1, uwsel := 0, uw := 85, empty := false } := by
  simp only [outputs, statusWord, emptyOutput, chkvalOutput, uwOutput, uwselOutput, resetBlock_phase, resetBlock_acc,
    resetBlock_lenc, resetBlock_done, resetBlock_err, resetBlock_unsup, resetBlock_chkskip, resetBlock_posovf]
  decide

end Sys2Proof.Machine
end

section
/-! The statements of the state family: what every step keeps, the frames of CHAR and END, flags, phases, and the
registers after a string. -/

namespace Sys2Proof.Machine

/-- Settles O36: RESET establishes the invariants from any registers; the cases of a step keep them. -/
theorem stepKeepsRegisterInvariants : Obligations.StepKeepsRegisterInvariants :=
  ⟨regsInv_resetBlock, fun _ _ h hstep => h.step hstep⟩

/-- Settles O37, by the position at which each case of a step leaves a reader of `OUT`. -/
theorem stepKeepsSymbolOrder : Obligations.StepKeepsSymbolOrder :=
  fun _ _ hregs h hstep => h.step hregs hstep

/-- Settles O38: only a Data record adds an index, which is the `POS` that the step then counts up. -/
theorem stepKeepsIndicesIncreasing : Obligations.StepKeepsIndicesIncreasing :=
  fun _ _ hregs h hstep => h.step hregs hstep

/-- Settles O42, by induction on the characters after the one that opens the frame. -/
theorem registersAfterCharacters : Obligations.RegistersAfterCharacters := by
  intro s cs rest hsafe hidle hne hport
  obtain ⟨t, hrun, ht, hrest⟩ := run_strEvents hsafe hidle hne hport
  exact ⟨t, hrun, ht.phase, ht.acc, ht.wgt, ht.lenc, ht.pos, ht.done, ht.err, ht.chkskip, ht.unsup, ht.posovf, ht.out,
    hrest, ht.cfg, ht.booted⟩

/-- Settles O17, by the closed form of CHAR in RUN and what every instruction keeps. -/
theorem charFrame : Obligations.CharFrame := by
  intro c s t h
  obtain ⟨herr, hcfg, hbooted, hpowerUps, hport⟩ := exec_keeps h
  have hcase : ExecCase s (.char c) t := exec_cases h
  refine ⟨herr, hcfg, hbooted, hpowerUps, hport, fun a => by rw [hcfg], fun k r => hcase.out_getElem?, ?_⟩
  cases hcase with
  | halted => simp
  | char _ err =>
    refine ⟨fun hrun => ?_, fun hrun hc => ?_, fun hrun hpos => ?_, fun hc hrun => ?_, by simp [err]⟩ <;>
      rw [charRun_eq c hrun]
    · exact ⟨hrun, rfl, rfl⟩
    · simp [hc]
    · simp [posWraps, hpos]
    · simp [hc]

/-- Settles O20, by the closed form of END in RUN and what every instruction keeps. -/
theorem endFrameUnchanged : Obligations.EndFrameUnchanged := by
  intro s t h
  obtain ⟨herr, hcfg, hbooted, hpowerUps, hport⟩ := exec_keeps h
  have hcase : ExecCase s .endFrame t := exec_cases h
  refine ⟨herr, hcfg, hbooted, hpowerUps, hport, fun a => by rw [hcfg], fun k r => hcase.out_getElem?, ?_⟩
  cases hcase with
  | halted => simp
  | endIdle err idle => simp [idle, err]
  | endRun err run =>
    rw [closeFrame_eq]
    refine ⟨fun _ => ⟨rfl, rfl, rfl, rfl, rfl, rfl⟩, fun _ hsome => ?_, by simp [run], by simp [err]⟩
    simp [hsome]

/-- Settles O31, flag by flag, from the four ways a step can look to the flags. -/
theorem flagsChangeOnlyAsTabled : Obligations.FlagsChangeOnlyAsTabled := by
  intro s t _ hstep hbooted
  have h : FlagCase s t := step_flagCase hstep hbooted
  exact ⟨h.done_rises, h.done_falls, h.err_rises, h.err_falls, h.unsup_rises, h.chkskip_rises, h.posovf_rises,
    h.flag_falls⟩

/-- Settles O32, row by row: the step runs the command presented, whose row is known. -/
theorem phaseMachine : Obligations.PhaseMachine := by
  intro s rest hbooted
  refine ⟨fun c herr hport => ?char, fun herr hport => ?endFrame, fun w herr hw hport => ?illegal,
    fun also hport => ?reset⟩
  case char =>
    obtain ⟨t, hexec⟩ := exec_next (.char c) (afterTake rest s)
    obtain ⟨rs, hout, hphase, hidle, hrun⟩ := (exec_cases hexec).char_row herr
    refine ⟨t, rs, (step_of_decode_ok hbooted herr hport (decode_encode _)).trans hexec, hout, hphase,
      fun hp hc => ?_, fun hp hc => ?_, fun hp hc => ?_, fun hp hc => ?_⟩
    · simpa [hc] using hidle hp
    · simpa [hc] using hidle hp
    · simpa [hc] using hrun hp
    · simpa [hc] using hrun hp
  case endFrame =>
    obtain ⟨t, hexec⟩ := exec_next .endFrame (afterTake rest s)
    obtain ⟨rs, hrow⟩ := (exec_cases hexec).end_row herr
    exact ⟨t, rs, (step_of_decode_ok hbooted herr hport (decode_encode _)).trans hexec, hrow⟩
  case illegal => exact ⟨_, step_of_illegal hbooted herr hport hw, rfl, rfl⟩
  case reset => exact ⟨_, step_of_reset hport, rfl, rfl⟩

/-- Settles O33: exchanging the surroundings commutes with every case of an instruction. -/
theorem noHiddenState : Obligations.NoHiddenState := by
  intro i s t h
  obtain ⟨rs, hout, hcase⟩ := (exec_cases h).withSurroundings
  exact ⟨rs, hout, fun o p n => (hcase o p n).exec_eq⟩

/-- Settles O34: both closed forms in IDLE read only the parameters and the operand. -/
theorem frameForgetsThePast : Obligations.FrameForgetsThePast := fun i _ _ => exec_of_idle i

/-- Settles O47: records in order from the beginning are whole frames, with nothing before the first. -/
theorem framesOfOut : Obligations.FramesOfOut := by
  intro rs k hscan hk
  refine ⟨frames_flatten rs, ?_⟩
  obtain ⟨tail, fs, hframes, htail, hwhole⟩ := frames_of_scanFrom hscan hk
  obtain rfl : tail = [] := List.map_eq_nil_iff.1 htail
  obtain rfl : frames rs = fs := hframes
  intro f hf
  have hf : WholeFrame f := hwhole f hf
  exact ⟨hf.head?, hf.complete, hf.incomplete⟩

/-- Settles O26: RESET sets every register the outputs read; the reset state is such a state. -/
theorem statusAfterReset : Obligations.StatusAfterReset := by
  refine ⟨fun s also rest hport => ⟨_, step_of_reset hport, rfl, outputs_resetBlock _⟩, ?_,
    rfl, rfl, rfl, rfl, rfl, rfl, rfl, rfl, rfl, rfl, rfl⟩
  exact outputs_resetBlock State.reset

/-- Settles O35: the reset state is what RESET leaves, with an empty `OUT` and no frame shown. -/
theorem invariantsHoldAtReset : Obligations.InvariantsHoldAtReset := by
  have hshown : ¬ frameShown State.reset := by simp [frameShown, State.reset]
  exact ⟨fun _ => regsInv_resetBlock State.reset, outOrdered_of_not_shown ⟨.nothing, rfl, nofun⟩ fun _ => hshown,
    fun _ h => absurd h hshown, nofun⟩

end Sys2Proof.Machine
end

section
/-! SUPPORT. The decoder on sequences of command words (R57, R60, R68). -/

namespace Sys2Proof

/-- Decoding and encoding a word are inverse to each other (R60). -/
theorem decode_eq_ok_iff {w : CmdWord} {i : Instr} : decode w = .ok i ↔ encode i = w :=
  ⟨encode_of_decode_ok, fun h => h ▸ decode_encode i⟩

@[simp] theorem decodeWords_nil : decodeWords [] = .ok [] := rfl

/-- A sequence decodes exactly when its first word and the rest both do. -/
theorem decodeWords_cons_eq_ok_iff {w : CmdWord} {ws : List CmdWord} {js : List Instr} :
    decodeWords (w :: ws) = .ok js ↔ ∃ i is, js = i :: is ∧ decode w = .ok i ∧ decodeWords ws = .ok is := by
  rw [decodeWords]
  cases decode w with
  | error e => simp
  | ok i => cases decodeWords ws <;> simp [eq_comm]

/-- Decoding and encoding a sequence are inverse to each other. -/
theorem decodeWords_eq_ok_iff {ws : List CmdWord} {is : List Instr} :
    decodeWords ws = .ok is ↔ is.map encode = ws := by
  induction ws generalizing is with
  | nil => simp [eq_comm]
  | cons w ws ih => simp only [decodeWords_cons_eq_ok_iff, decode_eq_ok_iff, ih, List.map_eq_cons_iff]

end Sys2Proof
end

section
/-! SUPPORT. The map of the PROM, range by range (R52), and the bits of its word (R42), under every setting. -/

namespace Sys2Proof.Machine

/-! ## The address map (R43, R52) -/

theorem promContent_of_lt_33 (g : Config) {a : Nat} (h : a < 33) : promContent g a = some (.eleven g.promData[a]) := by
  unfold promContent
  rw [if_neg (by omega), if_neg (by omega), dif_pos h]

theorem promContent_of_35_le (g : Config) {a : Nat} (h : 35 ≤ a) (h' : a ≤ 94) :
    promContent g a = some (.eleven (g.promData[a - 2]'(by omega))) := by
  unfold promContent
  rw [if_neg (by omega), if_neg (by omega), dif_neg (by omega), dif_pos (by omega)]

theorem promContent_unprogrammed (g : Config) {a : Nat} (h : a = 103 ∨ a = 105 ∨ 107 ≤ a) : promContent g a = none := by
  unfold promContent
  rw [if_neg (by omega), if_neg (by omega), dif_neg (by omega), dif_neg (by omega), dif_neg (by omega),
    if_neg (by omega), if_neg (by omega)]

theorem promContent_33 (g : Config) : promContent g 33 = some patternA := rfl

theorem promContent_34 (g : Config) : promContent g 34 = some patternB := rfl

/-- The patterns of the addresses 0 to 94, in order: the parameter's, with those of `A` and `B` in their places. -/
def dataPatterns (g : Config) : List (BitVec 11) :=
  g.promData.toList.take 33 ++ [0b10100011000, 0b10001011000] ++ g.promData.toList.drop 33

@[simp] theorem length_dataPatterns (g : Config) : (dataPatterns g).length = 95 := by simp [dataPatterns]

/-- The addresses 0 to 94 hold the data patterns (R44, R52). -/
theorem promContent_eq_dataPatterns (g : Config) {a : Nat} (h : a < 95) :
    promContent g a = (dataPatterns g)[a]?.map .eleven := by
  obtain hlow | rfl | rfl | hrest : a < 33 ∨ a = 33 ∨ a = 34 ∨ 35 ≤ a := by omega
  · simp [promContent_of_lt_33 g hlow, dataPatterns, List.getElem?_append, hlow]
  · simp [promContent_33, dataPatterns, patternA]
  · simp [promContent_34, dataPatterns, patternB]
  · obtain ⟨k, rfl⟩ := Nat.exists_eq_add_of_le' hrest
    simp [promContent_of_35_le g hrest (by omega), dataPatterns, List.getElem?_append, Nat.add_comm 33 k,
      show k + 33 < 93 by omega]

/-- Read in order, the addresses 0 to 94 give the data patterns, and nothing else. -/
theorem map_promContent_range (g : Config) :
    (List.range 95).map (promContent g) = (dataPatterns g).map (fun d => some (.eleven d)) := by
  apply List.ext_getElem (by simp)
  intro a ha ha'
  have hlt : a < 95 := by simpa using ha
  simp [promContent_eq_dataPatterns g hlt, hlt]

/-! ## The PROM word (R42) -/

theorem promWord_of_none {g : Config} {a : PromAddr} (h : promRead g a = none) : promWord g a = 0 := by
  rw [promWord, h]

theorem promWord_of_some {g : Config} {a : PromAddr} {p : Pattern} (h : promRead g a = some p) :
    promWord g a = 1#1 ++ patternN13 p ++ patternPat p := by
  rw [promWord, h]

/-! Fields of `PAT` and `N13` (R63). -/

/-- Module `m[k]` stands at bit `12 - k` of `PAT` (R63). -/
theorem patternModules_getElem? (p : Pattern) {k : Nat} (hk : k < patternLength p) :
    (patternModules p)[k]? = some ((patternPat p).getLsbD (12 - k)) := by
  cases p with
  | eleven d =>
    have hk : k < 11 := hk
    rw [patternPat_eleven_getLsbD, if_neg (by omega)]
    simp [patternModules, hk, BitVec.getMsbD, show 12 - k - 2 = 10 - k by omega]
  | thirteen d =>
    have hk : k < 13 := hk
    simp [patternModules, hk, BitVec.getMsbD]

/-- The two low bits of `PAT` are not used by an 11-module Pattern (R63). -/
theorem patternPat_extractLsb'_low {p : Pattern} (hlen : patternLength p = 11) :
    (patternPat p).extractLsb' 0 2 = 0b00#2 := by
  cases p with
  | eleven d => exact BitVec.extractLsb'_append_eq_right
  | thirteen d => cases hlen

theorem patternN13_getLsbD_zero (p : Pattern) : (patternN13 p).getLsbD 0 = true ↔ patternLength p = 13 := by
  cases p <;> simp [patternN13, patternLength]

/-- The bits of the word of a Pattern, from the low end: `PAT`, `N13`, `V` (R42). -/
theorem promWord_getLsbD {g : Config} {a : PromAddr} {p : Pattern} (h : promRead g a = some p) (i : Nat) :
    (promWord g a).getLsbD i =
      if i < 13 then (patternPat p).getLsbD i
      else if i < 14 then (patternN13 p).getLsbD (i - 13)
      else (1#1).getLsbD (i - 14) := by
  rw [promWord_of_some h, BitVec.getLsbD_append, BitVec.getLsbD_append]
  by_cases hpat : i < 13
  · rw [if_pos hpat, if_pos hpat]
  · rw [if_neg hpat, if_neg hpat, show i - 13 - 1 = i - 14 by omega]
    by_cases hn13 : i < 14
    · rw [if_pos (by omega), if_pos hn13]
    · rw [if_neg (by omega), if_neg hn13]

theorem promWord_extractLsb'_pat {g : Config} {a : PromAddr} {p : Pattern} (h : promRead g a = some p) :
    (promWord g a).extractLsb' 0 13 = patternPat p := by
  rw [promWord_of_some h]
  exact BitVec.extractLsb'_append_eq_right

theorem promWord_extractLsb'_n13 {g : Config} {a : PromAddr} {p : Pattern} (h : promRead g a = some p) :
    (promWord g a).extractLsb' 13 1 = patternN13 p := by
  rw [promWord_of_some h]
  exact (BitVec.extractLsb'_append_eq_of_le le_rfl).trans BitVec.extractLsb'_append_eq_right

theorem promWord_valid_iff (g : Config) (a : PromAddr) : (promWord g a).getLsbD 14 = true ↔ promRead g a ≠ none := by
  cases h : promRead g a with
  | none => simp [promWord_of_none h]
  | some p => simp [promWord_getLsbD h]

end Sys2Proof.Machine
end

section
/-! SUPPORT. The run lengths of a Pattern, and the default table of R45 pattern by pattern. -/

namespace Sys2Proof.Machine

/-! ## Run lengths (the widths of R45) -/

theorem runLengths_sum (cur : Bool) (n : Nat) (bs : List Bool) : (runLengths cur n bs).sum = n + bs.length := by
  induction bs generalizing cur n with
  | nil => simp [runLengths]
  | cons b bs ih =>
    rw [runLengths]
    split
    · rw [ih, List.length_cons]; omega
    · rw [List.sum_cons, ih, List.length_cons]; omega

theorem one_le_of_mem_runLengths {cur : Bool} {n m : Nat} {bs : List Bool} (hn : 1 ≤ n)
    (h : m ∈ runLengths cur n bs) : 1 ≤ m := by
  induction bs generalizing cur n with
  | nil => simp only [runLengths, List.mem_singleton] at h; omega
  | cons b bs ih =>
    rw [runLengths] at h
    split at h
    · exact ih (by omega) h
    · obtain rfl | h := List.mem_cons.1 h
      · exact hn
      · exact ih le_rfl h

@[simp] theorem length_patternModules (p : Pattern) : (patternModules p).length = patternLength p := by
  cases p <;> simp [patternModules, patternLength]

theorem patternWidths_sum (p : Pattern) : (patternWidths p).sum = patternLength p := by
  rw [← length_patternModules, patternWidths]
  cases patternModules p with
  | nil => rfl
  | cons b bs => exact (runLengths_sum b 1 bs).trans (Nat.add_comm 1 _)

theorem one_le_of_mem_patternWidths {p : Pattern} {n : Nat} (h : n ∈ patternWidths p) : 1 ≤ n := by
  rw [patternWidths] at h
  split at h
  · cases h
  · exact one_le_of_mem_runLengths le_rfl h

/-! ## The default table (R45; PRESUMED, log 2) -/

theorem defaultData_ends : ∀ d ∈ dataPatterns defaultConfig,
    (patternModules (.eleven d)).head? = some true ∧ (patternModules (.eleven d)).getLast? = some false :=
  List.all_iff_forall_prop.1 (by decide)

theorem defaultData_widths : ∀ d ∈ dataPatterns defaultConfig,
    (patternWidths (.eleven d)).length = 6 ∧ ∀ n ∈ patternWidths (.eleven d), n ≤ 4 :=
  List.all_iff_forall_prop.1 (by decide)

theorem defaultData_parity : ∀ d ∈ dataPatterns defaultConfig, (patternModules (.eleven d)).countP id % 2 = 0 :=
  List.all_iff_forall_prop.1 (by decide)

theorem defaultData_nodup : (dataPatterns defaultConfig).Nodup := by decide

end Sys2Proof.Machine
end

section
/-! The statements of the memory family: command words in sequence, the address map and the words of the PROM, the
default table. -/

namespace Sys2Proof.Machine

/-- Settles O4, by the equivalence of decoding and encoding, an induction on the words. -/
theorem commandStreamRoundTrip : Obligations.CommandStreamRoundTrip :=
  ⟨fun _ _ => decodeWords_eq_ok_iff.2 rfl, fun _ _ => decodeWords_eq_ok_iff.1⟩

/-- Settles O9: the fields of the word are those it is joined from, and `PAT` is read module by module. -/
theorem promWordLayout : Obligations.PromWordLayout := by
  intro g a
  refine ⟨promWord_of_none, promWord_valid_iff g a, fun p h =>
    ⟨promWord_extractLsb'_n13 h, promWord_extractLsb'_pat h, ?_, fun k hk => ?_, fun hlen => ?_⟩⟩
  · rw [promWord_getLsbD h]; exact patternN13_getLsbD_zero p
  · rw [patternModules_getElem? p hk, promWord_getLsbD h, if_pos (by omega)]
  · rw [← BitVec.extractLsb'_extractLsb'_of_le (len' := 13) (by omega), promWord_extractLsb'_pat h,
      patternPat_extractLsb'_low hlen]

/-- Settles O8, range by range of the map of R52. -/
theorem promAddressMap : Obligations.PromAddressMap := by
  intro g a
  refine ⟨fun h => promContent_of_lt_33 g h, ?_, ?_, fun h => promContent_of_35_le g h.1 h.2, fun h => ⟨?_, ?_⟩,
    fun h => ?_, ?_, ?_, rfl, rfl, rfl, rfl⟩
  · rintro rfl; exact promContent_33 g
  · rintro rfl; exact promContent_34 g
  · exact promContent_high_skip h.1 h.2
  · exact promContent_high_emit h.1 h.2
  · exact promContent_unprogrammed g (by bv_omega)
  · rintro rfl; exact promRead_startAddr g
  · rintro rfl; exact promRead_stopAddr g

/-- Settles O10: addresses 0 to 94 hold the data patterns, whose run lengths add up to their modules; the rest is
read off the table. -/
theorem defaultDataPatternsShape : Obligations.DefaultDataPatternsShape := by
  refine ⟨fun a ha => ?_, ?_⟩
  · have hmem : promContent defaultConfig a ∈ (List.range 95).map (promContent defaultConfig) := List.mem_map_of_mem ha
    rw [map_promContent_range] at hmem
    obtain ⟨d, hd, hcontent⟩ := List.mem_map.1 hmem
    obtain ⟨hhead, hlast⟩ := defaultData_ends d hd
    obtain ⟨hlen, hle⟩ := defaultData_widths d hd
    exact ⟨.eleven d, hcontent.symm, hhead, hlast, hlen, patternWidths_sum _,
      fun n hn => ⟨one_le_of_mem_patternWidths hn, hle n hn⟩, defaultData_parity d hd⟩
  · rw [map_promContent_range]
    refine defaultData_nodup.map fun d e h => ?_
    simpa using h

end Sys2Proof.Machine
end

section
/-! SUPPORT. A Pattern on wires and a record's word as the fields that determine them (R62 to R64). -/

namespace Sys2Proof.Machine

/-- A field of a word, said bit by bit. -/
theorem extractLsb'_eq_iff {n k len : Nat} {b : BitVec n} {v : BitVec len} :
    b.extractLsb' k len = v ↔ ∀ i, i < len → b.getLsbD (k + i) = v.getLsbD i := by
  refine ⟨fun h i hi => ?_, fun h => BitVec.eq_of_getLsbD_eq fun i hi => ?_⟩
  · simp [← h, hi]
  · simp [hi, h i hi]

/-- The wires carry the Pattern whose `N13` and `PAT` they are, and no other (R63). -/
theorem patternOfWires_eq_some_iff {n13 : BitVec 1} {pat : BitVec 13} {p : Pattern} :
    patternOfWires n13 pat = some p ↔ n13 = patternN13 p ∧ pat = patternPat p := by
  constructor
  · intro h
    unfold patternOfWires at h
    split at h
    next hn13 => cases h; exact ⟨hn13, rfl⟩
    next hn13 =>
      split at h
      next hlow =>
        cases h
        rw [BitVec.setWidth_eq_extractLsb' (by omega)] at hlow
        have hpat : pat.extractLsb' 2 11 ++ 0#2 = pat := by rw [← hlow]; exact BitVec.extractLsb'_append_extractLsb'
        exact ⟨(BitVec.eq_zero_or_eq_one n13).resolve_right hn13, hpat.symm⟩
      next => cases h
  · rintro ⟨rfl, rfl⟩
    cases p with
    | eleven d =>
      have hlow : (d ++ 0#2).setWidth 2 = 0#2 := BitVec.setWidth_append_eq_right
      have hdigits : (d ++ 0#2).extractLsb' 2 11 = d := BitVec.extractLsb'_append_eq_left
      simp only [patternOfWires, patternN13, patternPat, hlow, hdigits]
      rfl
    | thirteen d => rfl

/-! ## The fields of a record's word -/

section
variable (w : Nat) (r : SymRecord)

theorem recordWord_extractLsb'_role : (recordWord w r).extractLsb' (w + 14) 2 = roleCode r.role := by
  rw [extractLsb'_eq_iff]
  intro i hi
  rw [recordWord_getLsbD, if_neg (by omega), if_neg (by omega), if_neg (by omega), Nat.add_sub_cancel_left]

theorem recordWord_extractLsb'_idx : (recordWord w r).extractLsb' 14 w = BitVec.ofNat w r.idx := by
  rw [extractLsb'_eq_iff]
  intro i hi
  rw [recordWord_getLsbD, if_neg (by omega), if_neg (by omega), if_pos (by omega), Nat.add_sub_cancel_left]

theorem recordWord_extractLsb'_n13 : (recordWord w r).extractLsb' 13 1 = patternN13 r.pattern := by
  rw [extractLsb'_eq_iff]
  intro i hi
  rw [recordWord_getLsbD, if_neg (by omega), if_pos (by omega), Nat.add_sub_cancel_left]

theorem recordWord_extractLsb'_pat : (recordWord w r).extractLsb' 0 13 = patternPat r.pattern := by
  rw [extractLsb'_eq_iff]
  intro i hi
  rw [recordWord_getLsbD, if_pos (by omega), Nat.zero_add]

end

/-- The four fields determine the word (R62). -/
theorem eq_of_record_fields {w : Nat} {b b' : BitVec (w + 16)}
    (hrole : b.extractLsb' (w + 14) 2 = b'.extractLsb' (w + 14) 2)
    (hidx : b.extractLsb' 14 w = b'.extractLsb' 14 w)
    (hn13 : b.extractLsb' 13 1 = b'.extractLsb' 13 1)
    (hpat : b.extractLsb' 0 13 = b'.extractLsb' 0 13) : b = b' := by
  rw [extractLsb'_eq_iff] at hrole hidx hn13 hpat
  apply BitVec.eq_of_getLsbD_eq
  intro i hi
  obtain h | h | h | h : i < 13 ∨ i = 13 ∨ (14 ≤ i ∧ i < w + 14) ∨ w + 14 ≤ i := by omega
  · simpa [h] using hpat i h
  · simpa [h] using hn13 0 (by omega)
  · obtain ⟨k, rfl⟩ := Nat.exists_eq_add_of_le h.1
    have hk : k < w := by omega
    simpa [hk] using hidx k hk
  · obtain ⟨k, rfl⟩ := Nat.exists_eq_add_of_le h
    have hk : k < 2 := by omega
    simpa [hk] using hrole k hk

/-- A word reads as the record whose word it is, among those whose index fits. -/
theorem recordOfWord_eq_some_iff {w : Nat} {b : BitVec (w + 16)} {r : SymRecord} :
    recordOfWord w b = some r ↔ r.idx < 2 ^ w ∧ recordWord w r = b := by
  constructor
  · intro h
    unfold recordOfWord at h
    split at h
    next p hp =>
      obtain ⟨hn13, hpat⟩ := patternOfWires_eq_some_iff.1 hp
      cases h
      refine ⟨BitVec.isLt _, eq_of_record_fields ?_ ?_ ?_ ?_⟩
      · rw [recordWord_extractLsb'_role, roleCode_roleOfCode]
      · rw [recordWord_extractLsb'_idx, BitVec.ofNat_toNat, BitVec.setWidth_eq]
      · rw [recordWord_extractLsb'_n13, hn13]
      · rw [recordWord_extractLsb'_pat, hpat]
    next => cases h
  · rintro ⟨hidx, rfl⟩
    have hwires : patternOfWires ((recordWord w r).extractLsb' 13 1) ((recordWord w r).extractLsb' 0 13) =
        some r.pattern :=
      patternOfWires_eq_some_iff.2 ⟨recordWord_extractLsb'_n13 w r, recordWord_extractLsb'_pat w r⟩
    rw [recordOfWord, hwires]
    simp only [recordWord_extractLsb'_role, recordWord_extractLsb'_idx, roleOfCode_roleCode, BitVec.toNat_ofNat,
      Nat.mod_eq_of_lt hidx]

theorem patternLength_eq_n13 (p : Pattern) : patternLength p = 11 + 2 * (patternN13 p).toNat := by
  cases p <;> rfl

end Sys2Proof.Machine
end

section
/-! SUPPORT. Records in the form of R62 and R103: those the commands append, and what a step keeps of them. -/

namespace Sys2Proof.Machine

variable {s t : State}

theorem symRecord_wf_iff {w : Nat} {r : SymRecord} : r.wf w = true ↔
    r.idx < 2 ^ w ∧ (r.role = .data ∨ r.idx = 0) ∧ r.pattern.isThirteen = decide (r.role = .stop) := by
  simp [SymRecord.wf, and_assoc]

theorem startRecord_wf (w : Nat) : (⟨.start, 0, patternStart⟩ : SymRecord).wf w = true :=
  symRecord_wf_iff.2 ⟨Nat.two_pow_pos w, .inr rfl, rfl⟩

theorem stopRecord_wf (w : Nat) : (⟨.stop, 0, patternStop⟩ : SymRecord).wf w = true :=
  symRecord_wf_iff.2 ⟨Nat.two_pow_pos w, .inr rfl, rfl⟩

/-- The index of a Data record is a position, and its pattern one of the addresses 0 to 94. -/
theorem dataRecord_wf {g : Config} {w i : Nat} {c : CharOrd} (hi : i < 2 ^ w) :
    ∀ r ∈ dataRecord g i c, r.wf w = true := by
  cases hc : supported c with
  | true =>
    obtain ⟨d, hd⟩ := promRead_data g hc
    rw [dataRecord_supported hc hd, List.forall_mem_singleton]
    exact symRecord_wf_iff.2 ⟨hi, .inl rfl, rfl⟩
  | false => simp [hc]

/-- The pattern of a legal remainder has 11 modules, so the Checksum record has. -/
theorem checksumPart_wf {g : Config} {w : Nat} {acc : BitVec 7} (hacc : acc.toNat ≤ 102) :
    ∀ r ∈ checksumPart g acc, r.wf w = true := by
  unfold checksumPart
  split
  next p hp =>
    obtain ⟨d, rfl⟩ := chkPattern_eleven hacc hp
    rw [List.forall_mem_singleton]
    exact symRecord_wf_iff.2 ⟨Nat.two_pow_pos w, .inr rfl, rfl⟩
  next => simp

/-- Appending well-formed records keeps the form. -/
theorem RecordsWellFormed.append {rs : List SymRecord} (h : RecordsWellFormed s) (hcfg : t.cfg = s.cfg)
    (hout : t.out = s.out ++ rs) (hrs : ∀ r ∈ rs, r.wf s.cfg.idxW = true) : RecordsWellFormed t := by
  unfold RecordsWellFormed
  rw [hcfg, hout, List.forall_mem_append]
  exact ⟨h, hrs⟩

theorem RecordsWellFormed.openFrame (h : RecordsWellFormed s) : RecordsWellFormed (openFrame s) := by
  cases hp : s.phase with
  | idle =>
    rw [openFrame_of_idle hp]
    exact h.append rfl rfl (List.forall_mem_singleton.2 (startRecord_wf _))
  | run => rwa [openFrame_of_run hp]

theorem RecordsWellFormed.closeFrame (h : RecordsWellFormed s) (hacc : s.acc.toNat ≤ 102) :
    RecordsWellFormed (closeFrame s) := by
  rw [closeFrame_eq]
  exact h.append rfl (List.append_assoc ..)
    (List.forall_mem_append.2 ⟨checksumPart_wf hacc, List.forall_mem_singleton.2 (stopRecord_wf _)⟩)

theorem RecordsWellFormed.exec {i : Instr} (h : RecordsWellFormed s) (hregs : RegsInv s)
    (hexec : ExecCase s i t) : RecordsWellFormed t := by
  cases hexec with
  | halted => exact h
  | char c =>
    rw [dataSymbol_eq]
    exact h.openFrame.append rfl rfl (dataRecord_wf (openFrame_pos_lt hregs))
  | endIdle => exact h
  | endRun => exact h.closeFrame hregs.acc_le

/-- Only an instruction that runs appends records, and those have the form. -/
theorem RecordsWellFormed.step (h : RecordsWellFormed s) (hregs : BlockInv s) (hstep : step s = .next t) :
    RecordsWellFormed t := by
  cases step_cases hstep with
  | ran w rest i _ _ hs _ _ hran =>
    have htaken : RecordsWellFormed (afterTake rest s) := h
    exact htaken.exec ((hregs hs).afterTake rest) hran
  | _ => exact h

end Sys2Proof.Machine
end

section
/-! SUPPORT. The status outputs bit by bit and code by code (R65, R110, R111). -/

namespace Sys2Proof.Machine

theorem phaseBit_eq (p : Phase) : phaseBit p = decide (p = .run) := by cases p <;> rfl

/-- The bits of `STATUS`, from bit 0 (R65). -/
theorem statusWord_getLsbD (s : State) (i : Nat) : (statusWord s).getLsbD i =
    [phaseBit s.phase, s.done, s.err, s.unsup, s.chkskip, s.posovf, emptyOutput s].getD i false := by
  simp only [statusWord, BitVec.append_ofBool]
  rcases i with _ | _ | _ | _ | _ | _ | _ | i <;> simp

/-- `UW` is the width of the code `UWSEL`, which is one of four (R65, R111). -/
theorem uwOf_cases (sel : BitVec 2) :
    (sel = 0 ∧ uwOf sel = 85) ∨ (sel = 1 ∧ uwOf sel = 75) ∨ (sel = 2 ∧ uwOf sel = 65) ∨ (sel = 3 ∧ uwOf sel = 55) := by
  decide +revert

end Sys2Proof.Machine
end

section
/-! The statements of the encoding family: command words, records and Patterns on wires, the outputs, listings. -/

namespace Sys2Proof.Machine

/-- Settles O5: a word reads as a record exactly when it is that record's word and the index fits. -/
theorem symbolRecordRoundTrip : Obligations.SymbolRecordRoundTrip :=
  ⟨fun _ _ hidx => recordOfWord_eq_some_iff.2 ⟨hidx, rfl⟩, fun _ _ _ h => (recordOfWord_eq_some_iff.1 h).2⟩

/-- Settles O6, field by field. -/
theorem symbolRecordFieldPlaces : Obligations.SymbolRecordFieldPlaces :=
  ⟨fun w r => ⟨recordWord_extractLsb'_role w r, recordWord_extractLsb'_idx w r, recordWord_extractLsb'_n13 w r,
    recordWord_extractLsb'_pat w r⟩, rfl, rfl, rfl, rfl⟩

/-- Settles O7: each module has its place in `PAT`, and the wires carry no other Pattern than the one put on them. -/
theorem patternOnWires : Obligations.PatternOnWires := by
  refine ⟨fun p k => patternModules_getElem? p, fun p => ?_, rfl, rfl, rfl, rfl⟩
  refine ⟨length_patternModules p, patternLength_eq_n13 p, ?_, patternPat_extractLsb'_low,
    patternOfWires_eq_some_iff.2 ⟨rfl, rfl⟩⟩
  cases p with
  | eleven d => exact .inl rfl
  | thirteen d => exact .inr rfl

/-- Settles O39, by the cases of a step: the records an instruction appends have the form. -/
theorem stepKeepsRecordsWellFormed : Obligations.StepKeepsRecordsWellFormed :=
  fun _ _ hregs h hstep => h.step hregs hstep

/-- Settles O1: the legal words are those of their instructions, the others lie from 0x81 on. -/
theorem commandWordsDecodeAsWritten : Obligations.CommandWordsDecodeAsWritten :=
  ⟨decode_eq_ok_iff.2 rfl, decode_eq_ok_iff.2 rfl, decode_eq_ok_iff.2 rfl, decode_eq_ok_iff.2 rfl,
    decode_eq_error_iff.2 (by decide), decode_eq_error_iff.2 (by decide)⟩

/-- Settles O2: with bit 7 clear a word is that of CHAR with its low bits; the rest are END's word and the illegal. -/
theorem decodingFollowsTheCommandFormat : Obligations.DecodingFollowsTheCommandFormat := by
  intro w
  refine ⟨fun hbit => decode_eq_ok_iff.2 ?_, ?_, decode_eq_error_iff.2⟩
  · apply BitVec.eq_of_getLsbD_eq
    intro i hi
    rw [encode, BitVec.getLsbD_setWidth, BitVec.getLsbD_extractLsb', Nat.zero_add]
    obtain hlow | rfl : i < 7 ∨ i = 7 := by omega
    · simp [hi, hlow]
    · simpa using hbit
  · rintro rfl; exact decode_encode .endFrame

/-- Settles O3: decoding and encoding are inverse to each other. -/
theorem instructionWordRoundTrip : Obligations.InstructionWordRoundTrip :=
  ⟨fun i _ => decode_encode i, fun _ _ => encode_of_decode_ok⟩

/-- Settles O40: the bits of STATUS in order, the codes of `UWSEL`, and the bound of R29 on `ACC`. -/
theorem statusWordBits : Obligations.StatusWordBits := by
  refine ⟨fun s => ?_, fun s => uwOf_cases (uwselOutput s), fun s hregs hbooted => (hregs hbooted).acc_le⟩
  have hbit := statusWord_getLsbD s
  exact ⟨(hbit 0).trans (phaseBit_eq s.phase), hbit 1, hbit 2, hbit 3, hbit 4, hbit 5, hbit 6, hbit 7, rfl, rfl⟩

/-- Settles O48: the expansions of R71 by definition, the examples by reading their texts. -/
theorem listingExpansions : Obligations.ListingExpansions := by
  refine ⟨fun text => ⟨rfl, rfl⟩, fun w => rfl, rfl, rfl, rfl, rfl, ?_⟩
  decide

end Sys2Proof.Machine
end

section
/-! SUPPORT. The character class, the checksum value and the data address of an ordinal, case by case (R80 to R82). -/

namespace Sys2Proof.Machine

theorem supported_iff {c : CharOrd} : supported c = true ↔ 0x20 ≤ c.toNat ∧ c.toNat ≤ 0x7E := by
  simp only [supported, Bool.and_eq_true, decide_eq_true_eq]

theorem cv_of_32_le {c : CharOrd} (h : 32 ≤ c.toNat) : cv c = c.toNat - 32 := by
  have hcv := cv_eq_emod c
  have hc : c.toNat < 128 := c.isLt
  omega

/-- Below 32 the signed value is negative, and its residue lies one modulus above it (R81). -/
theorem cv_of_lt_32 {c : CharOrd} (h : c.toNat < 32) : cv c = c.toNat + 71 := by
  have hcv := cv_eq_emod c
  omega

/-- The residue may stand for the signed value in a sum taken modulo 103 (R81). -/
theorem add_cv_mul_emod (c : CharOrd) (a w : Int) :
    (a + cv c * w) % 103 = (a + ((c.toNat : Int) - 32) * w) % 103 := by
  rw [cv_eq_emod]
  exact ((Int.mod_modEq _ 103).mul_right w).add_left a

theorem dataAddr_toNat (c : CharOrd) : (dataAddr c).toNat = c.toNat - 32 := by
  rw [dataAddr, BitVec.toNat_ofNat, Nat.mod_eq_of_lt (Nat.lt_of_le_of_lt (Nat.sub_le _ _) c.isLt)]

end Sys2Proof.Machine
end

section
/-! The statements of the symbol table family: supported ordinals, checksum values, data addresses, the resolution of
a checksum remainder. -/

namespace Sys2Proof.Machine

/-- Settles O13: `cv` is the residue, from which its two forms and its use for the signed value follow. -/
theorem checksumValueOfOrdinal : Obligations.ChecksumValueOfOrdinal := by
  refine ⟨fun c => ⟨cv_eq_emod c, fun h => ?_, fun h => ?_⟩, add_cv_mul_emod, by decide⟩
  · have hc : c.toNat < 128 := c.isLt
    rw [cv_of_32_le h]
    omega
  · rw [cv_of_lt_32 h]
    omega

/-- Settles O11, by the two ranges of the remainder; the strings' remainders are computed. -/
theorem checksumPatternResolution : Obligations.ChecksumPatternResolution := by
  refine ⟨fun g r _ => ⟨rfl, fun hlow => ?_, fun hhigh => ⟨fun hskip => ?_, fun hemit => ?_⟩⟩, by decide⟩
  · exact promContent_low g hlow
  · exact promContent_high_skip hhigh.1 hhigh.2 hskip
  · exact promContent_high_emit hhigh.1 hhigh.2 hemit

/-- Settles O12: the class is the range 0x20 to 0x7E, and the ordinals in it and outside it are counted. -/
theorem supportedOrdinals : Obligations.SupportedOrdinals :=
  ⟨fun _ => supported_iff, by decide, by decide⟩

/-- Settles O14: the address is `c - 32`, which is also the checksum value from 32 on. -/
theorem dataAddressOfOrdinal : Obligations.DataAddressOfOrdinal := by
  intro c hc
  obtain ⟨hlow, hhigh⟩ := supported_iff.1 hc
  rw [dataAddr_toNat, cv_of_32_le hlow]
  exact ⟨rfl, Nat.sub_le_of_le_add hhigh, rfl⟩

end Sys2Proof.Machine
end

section
/-! SUPPORT. The Data record of CHAR as a PROM read (R92). -/

namespace Sys2Proof.Machine

/-- The Data record of a supported character carries the pattern of its PROM address (R83, R92). -/
theorem exists_promRead_dataRecord {c : CharOrd} (g : Config) (i : Nat) (h : supported c = true) :
    ∃ d, promRead g (dataAddr c) = some (.eleven d) ∧ dataRecord g i c = [⟨.data, i, .eleven d⟩] := by
  obtain ⟨d, hd⟩ := promRead_data g h
  exact ⟨d, hd, dataRecord_supported h hd⟩

end Sys2Proof.Machine
end

section
/-! The statement of the CHAR family: the whole next state of CHAR. -/

namespace Sys2Proof.Machine

/-- Settles O16, by the closed form of CHAR in each phase; the records it appends are the character's Data record. -/
theorem charStepEffect : Obligations.CharStepEffect := by
  refine ⟨fun c s herr => (ExecCase.halted _ herr).exec_eq, fun c s herr hidle => ?_, fun c s herr hrun => ?_,
    fun w => (decodingFollowsTheCommandFormat w).1, rfl⟩
  · refine ⟨dataRecord s.cfg 0 c, exists_promRead_dataRecord s.cfg 0, dataRecord_unsupported, ?_⟩
    rw [(ExecCase.char c herr).exec_eq, charIdle_eq c hidle, List.append_cons]
    rfl
  · refine ⟨dataRecord s.cfg s.pos c, exists_promRead_dataRecord s.cfg s.pos, dataRecord_unsupported, ?_⟩
    rw [(ExecCase.char c herr).exec_eq, charRun_eq c hrun]
    rfl

end Sys2Proof.Machine
end

section
/-! SUPPORT. Closing a frame with a Checksum pattern and without one (R102), and the outputs of the empty string
(R101). -/

namespace Sys2Proof.Machine

variable {s : State}

/-- END in RUN where `ACC` has a pattern: Checksum, then Stop. -/
theorem closeFrame_of_pattern {p : Pattern} (h : chkPattern s.cfg s.acc = some p) :
    closeFrame s =
      { s with
        phase := .idle
        done := true
        out := s.out ++ [⟨.checksum, 0, p⟩, ⟨.stop, 0, patternStop⟩] } := by
  simp [closeFrame_eq, checksumPart, h]

/-- END in RUN where `ACC` has none: Stop alone, which `CHKSKIP` notes. -/
theorem closeFrame_of_no_pattern (h : chkPattern s.cfg s.acc = none) :
    closeFrame s =
      { s with
        phase := .idle
        done := true
        chkskip := true
        out := s.out ++ [⟨.stop, 0, patternStop⟩] } := by
  simp [closeFrame_eq, checksumPart, h]

/-- R101: the outputs are a function of the registers, all of which END in IDLE sets or finds as given. -/
theorem outputs_emptyFrame (herr : s.err = false) (hidle : s.phase = .idle) :
    outputs (emptyFrame s) = { status := 0x42, chkval := 1, uwsel := 0, uw := 85, empty := true } := by
  simp only [outputs, statusWord, emptyOutput, chkvalOutput, uwOutput, uwselOutput, emptyFrame_phase, emptyFrame_acc,
    emptyFrame_lenc, emptyFrame_done, emptyFrame_err, emptyFrame_unsup, emptyFrame_chkskip, emptyFrame_posovf,
    herr, hidle]
  decide

end Sys2Proof.Machine
end

section
/-! The statements of the END family: the whole next state of END, and the empty string. -/

namespace Sys2Proof.Machine

/-- Settles O18, by the closed form of END in each case; in the worked example `ACC` has the pattern of `B`. -/
theorem endStepEffect : Obligations.EndStepEffect := by
  refine ⟨fun s herr => (ExecCase.halted _ herr).exec_eq, fun s herr hidle => (ExecCase.endIdle herr hidle).exec_eq,
    fun s p herr hrun hp => ?_, fun s herr hrun hnone => ?_, decode_encode .endFrame, ⟨_, rfl, rfl, rfl, rfl⟩⟩
  · rw [(ExecCase.endRun herr hrun).exec_eq, closeFrame_of_pattern hp]
    rfl
  · rw [(ExecCase.endRun herr hrun).exec_eq, closeFrame_of_no_pattern hnone]
    rfl

/-- Settles O19: END in IDLE answers the empty frame, whose registers the reload sets. -/
theorem endOfEmptyString : Obligations.EndOfEmptyString := fun s herr hidle =>
  ⟨emptyFrame s, (ExecCase.endIdle herr hidle).exec_eq, rfl, hidle, herr, rfl, rfl, rfl, rfl, rfl, rfl, rfl, rfl,
    outputs_emptyFrame herr hidle⟩

end Sys2Proof.Machine
end

section
/-! SUPPORT. The unit width class of a length, row by row of the table of R110, and its order (R111). -/

namespace Sys2Proof.Machine

variable {m n : Nat}

theorem uwselOf_of_le_12 (h : n ≤ 12) : uwselOf n = 0 := if_pos (by omega)

theorem uwselOf_of_13_to_16 (h : 13 ≤ n ∧ n ≤ 16) : uwselOf n = 1 := by
  rw [uwselOf, if_neg (by omega), if_pos (by omega)]

theorem uwselOf_of_17_to_19 (h : 17 ≤ n ∧ n ≤ 19) : uwselOf n = 2 := by
  rw [uwselOf, if_neg (by omega), if_neg (by omega), if_pos (by omega)]

theorem uwselOf_of_20_le (h : 20 ≤ n) : uwselOf n = 3 := by
  rw [uwselOf, if_neg (by omega), if_neg (by omega), if_neg (by omega)]

/-- The rows of R110 as one table over every length. -/
theorem uwselOf_eq_table (n : Nat) :
    uwselOf n = if n < 13 then 0 else if n ≤ 16 then 1 else if n ≤ 19 then 2 else 3 := by
  split_ifs
  · exact uwselOf_of_le_12 (by omega)
  · exact uwselOf_of_13_to_16 (by omega)
  · exact uwselOf_of_17_to_19 (by omega)
  · exact uwselOf_of_20_le (by omega)

/-- The saturation of `LENC` (R26) loses no class: the last row of R110 starts where `LENC` saturates. -/
theorem uwselOf_min_20 (n : Nat) : uwselOf (min n 20) = uwselOf n := by
  obtain h | h := Nat.le_total n 20
  · rw [Nat.min_eq_left h]
  · rw [Nat.min_eq_right h, uwselOf_of_20_le h, uwselOf_of_20_le (Nat.le_refl 20)]

/-- R110 numbers the classes in the order of the lengths. -/
theorem uwselOf_mono (h : m ≤ n) : uwselOf m ≤ uwselOf n := by
  rw [uwselOf_eq_table m, uwselOf_eq_table n]
  split_ifs <;> bv_omega

/-- A higher class is not a wider one (R111). -/
theorem uwOf_antitone {a b : BitVec 2} (h : a ≤ b) : uwOf b ≤ uwOf a := by
  decide +revert

/-- R110, R111: both outputs are those of the class of `LENC`. -/
theorem outputs_of_uwselOf_lenc {s : State} {sel : BitVec 2} (h : uwselOf s.lenc.toNat = sel) :
    (outputs s).uwsel = sel ∧ (outputs s).uw = uwOf sel :=
  ⟨h, congrArg uwOf h⟩

end Sys2Proof.Machine
end

section
/-! The statement of the unit width family. -/

namespace Sys2Proof.Machine

/-- Settles O41, by the rows of R110; the width falls with the class, and the class rises with the length. -/
theorem unitWidthSelection : Obligations.UnitWidthSelection := by
  refine ⟨fun s => ⟨fun h => outputs_of_uwselOf_lenc (uwselOf_of_le_12 h),
    fun h => outputs_of_uwselOf_lenc (uwselOf_of_13_to_16 h),
    fun h => outputs_of_uwselOf_lenc (uwselOf_of_17_to_19 h),
    fun h => outputs_of_uwselOf_lenc (uwselOf_of_20_le (Nat.le_of_eq h.symm))⟩,
    fun n => ?_, fun n => ?_, fun m n hmn => ?_⟩
  · rw [uwselOf_min_20, uwselOf_eq_table]
  · rw [uwselOf_min_20, uwselOf_eq_table]
    simp only [apply_ite uwOf, apply_ite BitVec.toNat]
    rfl
  · rw [uwselOf_min_20, uwselOf_min_20]
    exact BitVec.le_def.1 (uwOf_antitone (uwselOf_mono hmn))

end Sys2Proof.Machine
end

section
/-! SUPPORT. The reference `encode` as the block sees it (R115, R117): the remainder as the content of `ACC`, the
sequence of a non-empty string with its records counted, and indices wrapped. -/

namespace Sys2Proof.Machine

/-! ## The remainder -/

theorem remainder_eq_emod (cs : List CharOrd) : (remainder cs : Int) = (104 + weightedSum 1 cs) % 103 :=
  Int.toNat_of_nonneg (Int.emod_nonneg _ (by decide))

theorem remainder_le (cs : List CharOrd) : remainder cs ≤ 102 := by
  have hrem := remainder_eq_emod cs
  omega

/-- A remainder fits the seven bits of `ACC`. -/
theorem remainderAddr_toNat (cs : List CharOrd) : (remainderAddr cs).toNat = remainder cs :=
  (BitVec.toNat_ofNat _ _).trans (Nat.mod_eq_of_lt (Nat.lt_of_le_of_lt (remainder_le cs) (by decide)))

theorem chkPattern_remainderAddr_eq_none_iff (g : Config) (cs : List CharOrd) :
    chkPattern g (remainderAddr cs) = none ↔ 95 ≤ remainder cs ∧ g.chkHi = .skip := by
  rw [← remainderAddr_toNat]
  exact chkPattern_eq_none_iff g ((remainderAddr_toNat cs).trans_le (remainder_le cs))

/-- The one character has weight 1 (R115). -/
theorem remainder_singleton (c : CharOrd) : remainder [c] = (c.toNat + 72) % 103 := by
  have hrem := remainder_eq_emod [c]
  simp only [weightedSum] at hrem
  omega

/-- R117, both recurrences at once, by induction on the string from its end. -/
theorem residues_eq (cs : List CharOrd) :
    (residues cs).2 = (cs.length + 1) % 103 ∧ ((residues cs).1 : Int) = (104 + weightedSum 1 cs) % 103 := by
  induction cs using List.reverseRecOn with
  | nil => decide
  | append_singleton cs c ih =>
    obtain ⟨hwgt, hacc⟩ := ih
    rw [residues, List.foldl_concat, ← residues]
    refine ⟨?_, ?_⟩
    · simp [residueStep, hwgt]
    · rw [weightedSum_concat, ← Int.add_assoc, Nat.add_comm 1]
      exact residue_step_eq c hacc hwgt

/-! ## The sequence of a non-empty string -/

theorem encodeString_of_ne_nil (g : Config) {cs : List CharOrd} (h : cs ≠ []) :
    encodeString g cs =
      ⟨⟨.start, 0, patternStart⟩ :: (dataRecords g 0 cs ++ checksumRecord g cs ++ [⟨.stop, 0, patternStop⟩]),
        some (widthOfLength cs.length)⟩ := by
  cases cs with
  | nil => exact absurd rfl h
  | cons c cs => rfl

/-- The reference's Checksum record is the one END forms when `ACC` holds the remainder. -/
theorem checksumRecord_eq (g : Config) (cs : List CharOrd) :
    checksumRecord g cs = checksumPart g (remainderAddr cs) := by
  unfold checksumRecord checksumPart
  cases chkPattern g (remainderAddr cs) <;> rfl

theorem length_checksumPart (g : Config) (acc : BitVec 7) :
    (checksumPart g acc).length = if chkPattern g acc = none then 0 else 1 := by
  unfold checksumPart
  cases chkPattern g acc <;> rfl

/-- Only Data records carry an index, so wrapping leaves the Checksum record alone. -/
theorem map_wrapIndex_checksumPart (g : Config) (idxW : Nat) (acc : BitVec 7) :
    (checksumPart g acc).map (wrapIndex idxW) = checksumPart g acc := by
  unfold checksumPart
  cases chkPattern g acc <;> simp [wrapIndex]

/-- The sequence with every index modulo `2^IDX_W` (R116 (a)). -/
theorem map_wrapIndex_seq (g : Config) (idxW : Nat) {cs : List CharOrd} (h : cs ≠ []) :
    (encodeString g cs).seq.map (wrapIndex idxW) =
      ⟨.start, 0, patternStart⟩ :: ((dataRecords g 0 cs).map (wrapIndex idxW) ++
        checksumPart g (remainderAddr cs) ++ [⟨.stop, 0, patternStop⟩]) := by
  rw [encodeString_of_ne_nil g h, checksumRecord_eq]
  simp [map_wrapIndex_checksumPart, wrapIndex]

theorem length_dataRecords (g : Config) (i : Nat) (cs : List CharOrd) :
    (dataRecords g i cs).length = cs.countP supported := by
  induction cs generalizing i with
  | nil => rfl
  | cons c cs ih =>
    rw [dataRecords, List.length_append, ih, List.countP_cons, Nat.add_comm]
    cases hc : supported c with
    | true =>
      obtain ⟨p, hp⟩ := exists_dataRecord g i hc
      rw [hp]
      rfl
    | false =>
      rw [dataRecord_unsupported hc]
      rfl

theorem length_seq (g : Config) {cs : List CharOrd} (h : cs ≠ []) :
    (encodeString g cs).seq.length =
      2 + cs.countP supported + (if chkPattern g (remainderAddr cs) = none then 0 else 1) := by
  rw [encodeString_of_ne_nil g h, checksumRecord_eq, ← length_checksumPart, ← length_dataRecords g 0]
  simp only [List.length_cons, List.length_append, List.length_nil]
  omega

/-- Of supported characters none is missing; the Checksum record is, where a remainder of 95 or more is skipped. -/
theorem length_seq_of_supported (g : Config) {cs : List CharOrd} (h : cs ≠ [])
    (hall : ∀ c ∈ cs, supported c = true) :
    (encodeString g cs).seq.length =
      if 95 ≤ remainder cs ∧ g.chkHi = .skip then cs.length + 2 else cs.length + 3 := by
  rw [length_seq g h, List.countP_eq_length.2 hall, Nat.add_comm 2]
  simp only [chkPattern_remainderAddr_eq_none_iff]
  split_ifs <;> rfl

/-- R110, R111: the width of the reference is the one the block selects from the saturated `LENC`. -/
theorem widthOfLength_eq (n : Nat) : widthOfLength n = (uwOf (uwselOf (min n 20))).toNat := by
  obtain ⟨-, -, htable, -⟩ := unitWidthSelection
  exact (htable n).symm

end Sys2Proof.Machine
end

section
/-! SUPPORT. Modules drawn (R67, R121): every record of a sequence has 11 of them but the Stop, which has 13. -/

namespace Sys2Proof.Machine

theorem moduleCount_append (rs qs : List SymRecord) : moduleCount (rs ++ qs) = moduleCount rs + moduleCount qs := by
  simp [moduleCount]

theorem moduleStream_append (rs qs : List SymRecord) :
    moduleStream (rs ++ qs) = moduleStream rs ++ moduleStream qs :=
  List.flatMap_append

/-- Every module of every record is drawn once (R67). -/
theorem length_moduleStream (rs : List SymRecord) : (moduleStream rs).length = moduleCount rs := by
  simp [moduleStream, moduleCount, List.length_flatMap]

theorem moduleCount_of_eleven {rs : List SymRecord} (h : ∀ r ∈ rs, ∃ d, r.pattern = .eleven d) :
    moduleCount rs = 11 * rs.length := by
  induction rs with
  | nil => rfl
  | cons r rs ih =>
    obtain ⟨⟨d, hd⟩, hrs⟩ := List.forall_mem_cons.1 h
    have hcons : moduleCount (r :: rs) = patternLength r.pattern + moduleCount rs := rfl
    rw [hcons, ih hrs, hd, List.length_cons]
    exact (Nat.add_comm _ _).trans (Nat.mul_succ _ _).symm

/-- The records of a sequence before its Stop (R115). -/
def seqBody (g : Config) (cs : List CharOrd) : List SymRecord :=
  ⟨.start, 0, patternStart⟩ :: (dataRecords g 0 cs ++ checksumRecord g cs)

theorem seq_eq_seqBody_append (g : Config) {cs : List CharOrd} (h : cs ≠ []) :
    (encodeString g cs).seq = seqBody g cs ++ [⟨.stop, 0, patternStop⟩] := by
  rw [encodeString_of_ne_nil g h, seqBody, List.cons_append]

theorem pattern_eleven_of_mem_dataRecords {g : Config} {i : Nat} {cs : List CharOrd} {r : SymRecord}
    (h : r ∈ dataRecords g i cs) : ∃ d, r.pattern = .eleven d := by
  induction cs generalizing i with
  | nil => exact absurd h List.not_mem_nil
  | cons c cs ih =>
    obtain h | h := List.mem_append.1 h
    · cases hc : supported c with
      | true =>
        obtain ⟨d, -, hd⟩ := exists_promRead_dataRecord g i hc
        rw [hd, List.mem_singleton] at h
        exact ⟨d, by rw [h]⟩
      | false =>
        rw [dataRecord_unsupported hc] at h
        exact absurd h List.not_mem_nil
    · exact ih h

theorem pattern_eleven_of_mem_checksumPart {g : Config} {acc : BitVec 7} (hacc : acc.toNat ≤ 102) {r : SymRecord}
    (h : r ∈ checksumPart g acc) : ∃ d, r.pattern = .eleven d := by
  unfold checksumPart at h
  cases hp : chkPattern g acc with
  | none => simp [hp] at h
  | some p =>
    simp only [hp, List.mem_singleton] at h
    rw [h]
    exact chkPattern_eleven hacc hp

theorem pattern_eleven_of_mem_seqBody {g : Config} {cs : List CharOrd} {r : SymRecord} (h : r ∈ seqBody g cs) :
    ∃ d, r.pattern = .eleven d := by
  obtain rfl | h := List.mem_cons.1 h
  · exact ⟨_, rfl⟩
  · obtain h | h := List.mem_append.1 h
    · exact pattern_eleven_of_mem_dataRecords h
    · rw [checksumRecord_eq] at h
      exact pattern_eleven_of_mem_checksumPart ((remainderAddr_toNat cs).trans_le (remainder_le cs)) h

theorem moduleCount_seq (g : Config) {cs : List CharOrd} (h : cs ≠ []) :
    moduleCount (encodeString g cs).seq = 11 * ((encodeString g cs).seq.length - 1) + 13 := by
  rw [seq_eq_seqBody_append g h, moduleCount_append, moduleCount_of_eleven fun _ => pattern_eleven_of_mem_seqBody,
    List.length_append]
  rfl

/-- The Start pattern begins with a bar. -/
theorem head?_moduleStream_seq (g : Config) {cs : List CharOrd} (h : cs ≠ []) :
    (moduleStream (encodeString g cs).seq).head? = some true := by
  rw [encodeString_of_ne_nil g h]
  rfl

/-- The Stop pattern ends with a bar. -/
theorem getLast?_moduleStream_seq (g : Config) {cs : List CharOrd} (h : cs ≠ []) :
    (moduleStream (encodeString g cs).seq).getLast? = some true := by
  have hstop : (moduleStream [⟨.stop, 0, patternStop⟩]).getLast? = some true := by decide
  rw [seq_eq_seqBody_append g h, moduleStream_append, List.getLast?_append, hstop]
  rfl

end Sys2Proof.Machine
end

section
/-! SUPPORT. A string and END presented: the frame that END leaves behind (R116), from IDLE and from the open frame
after the string's characters. -/

namespace Sys2Proof.Machine

variable {s t : State}

/-- A command presented to a RESET block without a fault: the step is its `exec`. -/
theorem step_commandOf {i : Instr} {rest : List Event} (hsafe : Safe s) (hport : s.port = commandOf i :: rest) :
    step s = exec i (afterTake rest s) :=
  step_of_decode_ok hsafe.1 hsafe.2 hport (decode_encode i)

/-- `t` is `s₀` after one whole frame of the string `cs`: the records and registers of R116, from which its `UW` and
`EMPTY` follow. What is at the port is not said. -/
structure StringEncoded (s₀ : State) (cs : List CharOrd) (t : State) : Prop where
  out : t.out = s₀.out ++ (encodeString s₀.cfg cs).seq.map (wrapIndex s₀.cfg.idxW)
  phase : t.phase = .idle
  done : t.done = true
  err : t.err = false
  acc : cs ≠ [] → t.acc.toNat = remainder cs
  acc_nil : cs = [] → t.acc = 1
  lenc : t.lenc.toNat = min cs.length 20
  unsup : t.unsup = true ↔ ∃ c ∈ cs, supported c = false
  chkskip : t.chkskip = true ↔ cs ≠ [] ∧ chkPattern s₀.cfg (remainderAddr cs) = none
  posovf : t.posovf = true ↔ 2 ^ s₀.cfg.idxW ≤ cs.length
  cfg : t.cfg = s₀.cfg
  booted : t.booted = true

namespace StringEncoded

variable {s₀ : State} {cs : List CharOrd} (h : StringEncoded s₀ cs t)
include h

theorem safe : Safe t := ⟨h.booted, h.err⟩

/-- R116 (d): the unit width selected is the reference's. -/
theorem width (hne : cs ≠ []) : (encodeString s₀.cfg cs).width = some (outputs t).uw.toNat := by
  have huw : (outputs t).uw = uwOf (uwselOf t.lenc.toNat) := rfl
  rw [encodeString_of_ne_nil _ hne, widthOfLength_eq, huw, h.lenc]

/-- R116 (h): `LENC` saturates and does not wrap, so that it is 0 for the empty string only. -/
theorem empty_iff : (outputs t).empty = true ↔ cs = [] := by
  have hempty : (outputs t).empty = (t.done && decide (t.lenc = 0)) := rfl
  have hzero : t.lenc = 0 ↔ min cs.length 20 = 0 := by
    rw [← h.lenc]
    exact BitVec.toNat_inj.symm
  rw [hempty, h.done, Bool.true_and, decide_eq_true_iff, hzero, ← List.length_eq_zero_iff]
  omega

end StringEncoded

/-- END in IDLE is a frame of the empty string (R101). -/
theorem stringEncoded_emptyFrame (hsafe : Safe s) (hidle : s.phase = .idle) : StringEncoded s [] (emptyFrame s) := by
  obtain ⟨hbooted, herr⟩ := hsafe
  constructor <;> simp [encodeString, hbooted, herr, hidle]

/-- After the characters of a string, `ACC` holds the remainder of the reference (R117). -/
theorem CharsTaken.acc_eq {s₀ : State} {cs : List CharOrd} (h : CharsTaken s₀ cs t) : t.acc = remainderAddr cs := by
  apply BitVec.eq_of_toNat_eq
  rw [remainderAddr_toNat]
  exact Int.ofNat_inj.1 (h.acc.trans (remainder_eq_emod cs).symm)

/-- END after the characters of a non-empty string closes its frame: the Checksum is the remainder's. -/
theorem CharsTaken.stringEncoded_closeFrame {s₀ : State} {cs : List CharOrd} (h : CharsTaken s₀ cs t)
    (hne : cs ≠ []) : StringEncoded s₀ cs (closeFrame t) := by
  rw [closeFrame_eq]
  constructor
  case out => simp [map_wrapIndex_seq _ _ hne, h.out, h.cfg, h.acc_eq]
  case phase => rfl
  case done => rfl
  case err => exact h.err
  case acc =>
    intro _
    rw [h.acc_eq, remainderAddr_toNat]
  case acc_nil => exact fun hnil => absurd hnil hne
  case lenc => exact h.lenc
  case unsup => exact h.unsup
  case chkskip => simp [h.chkskip, h.cfg, h.acc_eq, hne]
  case posovf => exact h.posovf
  case cfg => exact h.cfg
  case booted => exact h.booted

/-- R116: from IDLE, a string and END are one frame of `n + 1` steps. -/
theorem run_encodeEvents {cs : List CharOrd} {rest : List Event} (hsafe : Safe s) (hidle : s.phase = .idle)
    (hport : s.port = encodeEvents cs ++ rest) :
    ∃ t, Host.Core.run core (cs.length + 1) s = .next t ∧ StringEncoded s cs t ∧ t.port = rest := by
  by_cases hne : cs = []
  · subst hne
    have hstep : step s = .next (emptyFrame (afterTake rest s)) :=
      (step_commandOf hsafe hport).trans (ExecCase.endIdle (s := afterTake rest s) hsafe.2 hidle).exec_eq
    exact ⟨_, core_run_of_step hstep 0,
      { stringEncoded_emptyFrame (s := afterTake rest s) hsafe hidle with }, rfl⟩
  · rw [encodeEvents, List.append_assoc] at hport
    obtain ⟨u, hrun, hu, hend⟩ := run_strEvents hsafe hidle hne hport
    have hclose : CharsTaken s cs (afterTake rest u) := { hu with }
    have hstep : step u = .next (closeFrame (afterTake rest u)) :=
      (step_commandOf ⟨hu.booted, hu.err⟩ hend).trans (ExecCase.endRun hclose.err hclose.phase).exec_eq
    refine ⟨_, (core_run_add hrun 1).trans (core_run_of_step hstep 0), hclose.stringEncoded_closeFrame hne, ?_⟩
    rw [closeFrame_eq]
    rfl

end Sys2Proof.Machine
end

section
/-! SUPPORT. Runs of presented commands do not depend on what is no register (R32), and from IDLE not on the registers
either (R33, R119). -/

namespace Sys2Proof.Machine

variable {s t : State}

/-- An instruction keeps a state safe. -/
theorem Safe.exec {i : Instr} (hsafe : Safe s) (hexec : exec i s = .next t) : Safe t := by
  obtain ⟨herr, -, hbooted, -, -⟩ := exec_keeps hexec
  exact ⟨hbooted.trans hsafe.1, herr.trans hsafe.2⟩

/-- The commands of a program appended to whatever `OUT` holds: the same records and the same registers. -/
theorem run_commands_withSurroundings (is : List Instr) (hsafe : Safe s) :
    ∃ t rs, ∀ (o : List SymRecord) (p : List Event) (n : Nat),
      Host.Core.run core is.length (withSurroundings o (is.map commandOf ++ p) n s) =
        .next (withSurroundings (o ++ rs) p n t) := by
  induction is generalizing s with
  | nil => exact ⟨s, [], fun o p n => by rw [List.append_nil]; rfl⟩
  | cons i is ih =>
    obtain ⟨u, hu⟩ := exec_next i s
    obtain ⟨rs, -, hfirst⟩ := (exec_cases hu).withSurroundings
    obtain ⟨t, qs, hlater⟩ := ih (hsafe.exec hu)
    refine ⟨t, rs ++ qs, fun o p n => ?_⟩
    have hstep := (step_commandOf (s := withSurroundings o ((i :: is).map commandOf ++ p) n s) hsafe rfl).trans
      (hfirst o (is.map commandOf ++ p) n).exec_eq
    rw [← List.append_assoc]
    exact (core_run_of_step hstep _).trans (hlater _ p n)

theorem withSurroundings_of_eq {o : List SymRecord} {p : List Event} {n : Nat} (ho : s.out = o) (hp : s.port = p)
    (hn : s.powerUps = n) : withSurroundings o p n s = s := by
  subst ho hp hn
  rfl

/-- R33: from any two safe states in IDLE with the same parameters, a command presented appends the same records and
leaves the same registers. -/
theorem step_commandOf_of_idle (i : Instr) {s' : State} {p p' : List Event} (hcfg : s.cfg = s'.cfg)
    (hsafe : Safe s) (hidle : s.phase = .idle) (hport : s.port = commandOf i :: p)
    (hsafe' : Safe s') (hidle' : s'.phase = .idle) (hport' : s'.port = commandOf i :: p') :
    ∃ u rs, Safe u ∧ step s = .next (withSurroundings (s.out ++ rs) p s.powerUps u) ∧
      step s' = .next (withSurroundings (s'.out ++ rs) p' s'.powerUps u) := by
  obtain ⟨u, rs, hu, hout, hu'⟩ := exec_of_idle i (s := afterTake p s) (s' := afterTake p' s') hcfg hidle hidle'
    hsafe.2 hsafe'.2
  obtain ⟨-, -, hbooted, hpower, hrest⟩ := exec_keeps hu
  refine ⟨u, rs, Safe.exec (s := afterTake p s) hsafe hu, ?_, ?_⟩
  · rw [step_commandOf hsafe hport, hu, ← withSurroundings_of_eq hout hrest hpower]
    rfl
  · rw [step_commandOf hsafe' hport', hu', afterTake_booted, hsafe'.1.trans (hbooted.trans hsafe.1).symm]
    rfl

/-- The same of a program: its first command reloads the registers, and those after it find them alike. -/
theorem run_commands_of_idle {is : List Instr} (hne : is ≠ []) {s' : State} {p p' : List Event}
    (hcfg : s.cfg = s'.cfg) (hsafe : Safe s) (hidle : s.phase = .idle) (hport : s.port = is.map commandOf ++ p)
    (hsafe' : Safe s') (hidle' : s'.phase = .idle) (hport' : s'.port = is.map commandOf ++ p') :
    ∃ t rs, Host.Core.run core is.length s = .next (withSurroundings (s.out ++ rs) p s.powerUps t) ∧
      Host.Core.run core is.length s' = .next (withSurroundings (s'.out ++ rs) p' s'.powerUps t) := by
  cases is with
  | nil => exact absurd rfl hne
  | cons i is =>
    obtain ⟨u, rs, hu, hstep, hstep'⟩ := step_commandOf_of_idle i hcfg hsafe hidle hport hsafe' hidle' hport'
    obtain ⟨t, qs, hlater⟩ := run_commands_withSurroundings is hu
    refine ⟨t, rs ++ qs, ?_, ?_⟩ <;> rw [← List.append_assoc]
    · exact (core_run_of_step hstep _).trans (hlater _ p _)
    · exact (core_run_of_step hstep' _).trans (hlater _ p' _)

/-- The program of a string: its characters and END (R71). -/
def encodeProgram (cs : List CharOrd) : List Instr := cs.map .char ++ [.endFrame]

theorem encodeEvents_eq_map_commandOf (cs : List CharOrd) : encodeEvents cs = (encodeProgram cs).map commandOf := by
  simp [encodeEvents, strEvents, encodeProgram]

@[simp] theorem length_encodeProgram (cs : List CharOrd) : (encodeProgram cs).length = cs.length + 1 := by
  simp [encodeProgram]

theorem encodeProgram_ne_nil (cs : List CharOrd) : encodeProgram cs ≠ [] :=
  List.append_ne_nil_of_right_ne_nil _ (List.cons_ne_nil _ _)

end Sys2Proof.Machine
end

section
/-! The statements of the encode and reference family: the residue recurrences, a run against `encode`, the same string
twice, and the number of records and of modules. -/

namespace Sys2Proof.Machine

/-- Settles O43: the characters open and fill a frame whose registers are known, and END closes it. -/
theorem encodeRunMatchesReference : Obligations.EncodeRunMatchesReference := by
  intro s cs rest hsafe hidle hport
  obtain ⟨t, hrun, ht, hrest⟩ := run_encodeEvents hsafe hidle hport
  exact ⟨t, hrun, ht.out, ht.phase, ht.done, ht.err, ht.acc, ht.acc_nil, ht.lenc, ht.width, ht.unsup, ht.chkskip,
    ht.posovf, ht.empty_iff, hrest, ht.cfg, ht.booted⟩

/-- Settles O15, by induction on the string from its end. -/
theorem residueRecurrencesAreExact : Obligations.ResidueRecurrencesAreExact := residues_eq

/-- Settles O44: the first frame ends in a safe IDLE state, from which the same commands do the same. -/
theorem sameStringTwiceGivesSameRecords : Obligations.SameStringTwiceGivesSameRecords := by
  intro s cs rest hsafe hidle hport
  obtain ⟨u, hrun, hu, hrest⟩ := run_encodeEvents hsafe hidle hport
  rw [encodeEvents_eq_map_commandOf] at hport hrest
  obtain ⟨t, rs, hfirst, hsecond⟩ := run_commands_of_idle (encodeProgram_ne_nil cs) hu.cfg.symm hsafe hidle hport
    hu.safe hu.phase hrest
  rw [length_encodeProgram] at hfirst hsecond
  obtain rfl := Host.Outcome.next.inj (hrun.symm.trans hfirst)
  refine ⟨_, rs, hrun, rfl, ?_⟩
  rw [Nat.two_mul]
  exact (core_run_add hrun _).trans hsecond

/-- Settles O45, from the count of a sequence's records and the patterns of remainders (R85). -/
theorem sequenceLength : Obligations.SequenceLength := by
  refine fun g => ⟨rfl, fun cs hne => length_seq g hne, fun cs hne hall => ?_, fun c hc => ?_⟩
  · rw [length_seq_of_supported g hne hall]
    refine ⟨?_, fun hhigh hskip => if_pos ⟨hhigh, hskip⟩⟩
    split_ifs with hnone
    · obtain ⟨hhigh, hskip⟩ := hnone
      simp only [hskip, reduceCtorEq, or_false]
      omega
    · refine iff_of_true rfl ?_
      cases hhi : g.chkHi with
      | skip => exact .inl (Nat.lt_succ_iff.1 (Nat.lt_of_not_le fun hhigh => hnone ⟨hhigh, hhi⟩))
      | emit => exact .inr rfl
  · obtain ⟨hlow, hhigh⟩ := supported_iff.1 hc
    have htilde : c = 0x7E ↔ c.toNat = 126 := BitVec.toNat_inj.symm
    rw [remainder_singleton, htilde]
    omega

/-- Settles O46; the one Data record and the Checksum record of `A` make four records. -/
theorem moduleCountOfSequence : Obligations.ModuleCountOfSequence := by
  refine ⟨fun g cs hne => ⟨moduleCount_seq g hne, length_moduleStream _, head?_moduleStream_seq g hne,
    getLast?_moduleStream_seq g hne⟩, fun g => ?_⟩
  have hne : ([0x41] : List CharOrd) ≠ [] := List.cons_ne_nil _ _
  obtain ⟨-, -, hsupported, -⟩ := sequenceLength g
  have hlen : (encodeString g [0x41]).seq.length = 4 := (hsupported _ hne (by decide)).1.2 (.inl (by decide))
  rw [moduleCount_seq g hne, hlen]
  exact ⟨rfl, rfl⟩

end Sys2Proof.Machine
end

section
/-! SUPPORT. Rules of a halted block and of one not yet RESET: each ignores or refuses a command word, and RESET ends
both. -/

namespace Sys2Proof.Machine

variable {s : State}

/-- R131: with `ERR = 1` a command word, legal or not, is taken and has no effect. -/
theorem step_of_err {w : CmdWord} {rest : List Event} (hbooted : s.booted = true) (herr : s.err = true)
    (hport : s.port = .command w :: rest) : step s = .next (afterTake rest s) := by
  rw [step_of_port_cons hport]
  exact runCommand_of_err (s := afterTake rest s) hbooted herr

theorem runCommand_of_not_booted (w : CmdWord) (hbooted : s.booted = false) :
    runCommand w s = .refused .commandBeforeReset := by
  simp [runCommand, hbooted]

/-- R153: before the first RESET no command word has a meaning. -/
theorem step_of_not_booted {w : CmdWord} {rest : List Event} (hbooted : s.booted = false)
    (hport : s.port = .command w :: rest) : step s = .refused .commandBeforeReset := by
  rw [step_of_port_cons hport]
  exact runCommand_of_not_booted (s := afterTake rest s) w hbooted

theorem step_of_powerCycle {rest : List Event} (hport : s.port = .powerCycle :: rest) :
    step s = .next (powerUp (afterTake rest s)) :=
  step_of_port_cons hport

/-- Of a block that was RESET before, RESET changes the registers alone. -/
theorem resetBlock_of_booted (hbooted : s.booted = true) :
    resetBlock s = { s with phase := .idle, acc := 1, wgt := 1, lenc := 0, pos := 0, done := false, err := false,
                            unsup := false, chkskip := false, posovf := false } := by
  rw [resetBlock, frameInit, ← hbooted]

end Sys2Proof.Machine
end

section
/-! The statements of the exceptions family: the entry of IllegalCommand, the halted block, the way out of it, and the
block before its first RESET. -/

namespace Sys2Proof.Machine

/-- Settles O24, by the cases of a step: with `ERR = 1` and the power kept, nothing is presented, a word is ignored, or
the block is RESET. -/
theorem onlyResetLeavesTheFault : Obligations.OnlyResetLeavesTheFault := by
  intro s t hbooted herr hstep hpower
  cases step_cases hstep with
  | hold | ignored => exact .inl rfl
  | reset also rest hport =>
    exact .inr ⟨⟨also, hport⟩, resetBlock_of_booted (s := afterTake rest s) hbooted⟩
  | power => simp at hpower
  | illegal _ _ _ _ hclear | ran _ _ _ _ _ _ hclear => simp [herr] at hclear

/-- Settles O22: an illegal word with `ERR = 0` raises IllegalCommand, whose entry is `ERR <- 1`. -/
theorem illegalCommandEntry : Obligations.IllegalCommandEntry :=
  fun _ _ _ hbooted herr hport hword => step_of_illegal hbooted herr hport hword

/-- Settles O23: the first action of either instruction, and the check of `ERR` before the decoder. -/
theorem haltedBlockIgnoresCommands : Obligations.HaltedBlockIgnoresCommands :=
  ⟨fun i _ herr => (ExecCase.halted i herr).exec_eq, fun _ _ _ hbooted herr hport => step_of_err hbooted herr hport⟩

/-- Settles O27: a word is refused, RESET sets every register, and a power cycle leads back to such a block. -/
theorem poweredUpBlockNeedsReset : Obligations.PoweredUpBlockNeedsReset :=
  ⟨fun _ _ _ hbooted hport => step_of_not_booted hbooted hport,
    fun _ _ _ _ hport => ⟨_, step_of_reset hport, rfl, rfl, rfl, rfl, rfl, rfl, rfl, rfl, rfl, rfl, rfl⟩,
    fun _ _ hport => ⟨_, step_of_powerCycle hport, rfl, rfl, rfl, rfl⟩⟩

end Sys2Proof.Machine
end

section
/-! The statement of the reset and hazards family: RESET from every state, with or without a command word. -/

namespace Sys2Proof.Machine

/-- Settles O25: RESET does not look at the word that came with it, and a halted block ignores every word. -/
theorem resetFromAnyState : Obligations.ResetFromAnyState :=
  ⟨fun _ _ _ hport => step_of_reset hport, fun _ _ _ hbooted herr hport => step_of_err hbooted herr hport⟩

end Sys2Proof.Machine
end
